-- ==== Sys2Proof/Config.lean ====
section
/-! DEFINITION. What one synthesis of the block fixes (43_sequencer R170, R179), and the value the spec leaves free. -/

namespace Sys2Proof

/-- `ROUNDS_PER_CYCLE`, written `U` (00_scope R7, 43_sequencer R170): "one of 1, 2 or 4". -/
inductive RoundsPerCycle where
  | one
  | two
  | four
deriving DecidableEq, Repr

/-- How the round datapath is built: the admissible schedules the spec writes out (40_sipround R103, R104, R106, R108;
43_sequencer R179). -/
inductive Datapath where
  /-- the statement order of R103 -/
  | sequential
  /-- the single-assignment values of R104 -/
  | singleAssignment
  /-- one half-round unit used twice with permuted routing, R106 -/
  | permuted
  /-- an unrolled chain of `2U` half-round stages, R108 -/
  | halfStages
deriving DecidableEq, Repr

/-- The parameters fixed at synthesis: "`U` is a parameter of the hardware fixed at synthesis, not a port or a command.
A model takes `U` as an argument" (43_sequencer R170). -/
structure Config where
  roundsPerCycle : RoundsPerCycle
  datapath : Datapath
deriving DecidableEq, Repr

/-- The reference design: `U = 1` (43_sequencer R170).
DESIGN CHOICE (safe: no port depends on it, log 5): the schedule is R103's statement order. -/
def Config.reference : Config := { roundsPerCycle := .one, datapath := .sequential }

/-- FREE VALUE (93 I7, "any value: they are not read"; log 4): what the command port carries, as the 136-bit word of
30_encoding R70, at an edge where the supplier presents nothing. -/
opaque Config.idleCommand : BitVec 136

end Sys2Proof
end

