-- ==== Sys2Proof/Word.lean ====
section
/-! DEFINITION. The two word types of the spec (00_scope R7, R8): a 64-bit unsigned word and a byte, bit 0 least significant. -/

namespace Sys2Proof

/-- A 64-bit unsigned word (00_scope R7, "word width"). -/
abbrev Word := BitVec 64

/-- One message byte (20_memory R52). -/
abbrev Byte := BitVec 8

end Sys2Proof
end

