-- ==== Sys2Proof/Syntax.lean ====
section
/-! DEFINITION. The command format (30_encoding R70) and the commands (30_encoding R73). -/

namespace Sys2Proof

/-- One transfer on the command port: CTRL, D0 and D1 (30_encoding R70). -/
structure Command where
  ctrl : BitVec 8
  d0 : Word
  d1 : Word
deriving DecidableEq, Repr

/-- The five commands of the opcode map (30_encoding R73) with the operands each uses (R72). An ignored field is no operand. -/
inductive Instr where
  /-- NOP (41_control_commands R123) -/
  | nop
  /-- INIT k0, k1 (41_control_commands R124) -/
  | init (k0 k1 : Word)
  /-- BLOCK m (42_message_commands R140) -/
  | block (m : Word)
  /-- FINAL nb, t (42_message_commands R143): `nb` is the byte count, `t` all of D0, the ignored lanes too -/
  | final (nb : Nat) (t : Word)
  /-- CLEAR (41_control_commands R128) -/
  | clear
deriving DecidableEq, Repr

end Sys2Proof
end

