-- ==== Sys2Proof/Machine/State.lean ====
section
/-! DEFINITION. What the machine holds from one edge to the next (10_state R20-R29), how it can stop, and its state after reset
(10_state R43). -/

namespace Sys2Proof.Machine

/-- The states of the control state machine (10_state R25). The codes 5 to 7 are excluded by the type (93 I4). -/
inductive Fsm where
  /-- no key loaded since reset or CLEAR -/
  | unkeyed
  /-- key loaded; between commands of a message -/
  | ready
  /-- compression rounds of a BLOCK or FINAL word in progress -/
  | comp
  /-- finalization rounds in progress -/
  | fin
  /-- tag computed and valid -/
  | done
deriving DecidableEq, Repr

/-- The recorded error (10_state R28, 60_exceptions R200). Code 3, never produced, is excluded by the type (93 I5). -/
inductive ErrCode where
  | none
  | illegal
  | seq
deriving DecidableEq, Repr

/-- The values on the input ports at one edge (10_state R35). -/
structure PortIn where
  rst : Bool
  cmdValid : Bool
  cmd : Command
deriving DecidableEq, Repr

/-- One item of the supplier's script: what it drives on the ports, and for how many edges (log 2). -/
inductive Stimulus where
  /-- these port values for exactly one edge, whatever they are -/
  | edge (p : PortIn)
  /-- this command, held on the port until the edge that accepts it (30_encoding R77, 70_reset_and_hazards R224) -/
  | present (c : Command)
  /-- WAIT: leave `cmd_valid` at 0 until `cmd_ready = 1` (30_encoding R79) -/
  | wait
  /-- WAITTAG: leave `cmd_valid` at 0 until `tag_valid = 1` (30_encoding R79) -/
  | waitTag
deriving DecidableEq, Repr

/-- The registers of the block (10_state R20-R28; "There is no other state", R29), the parameters it was built with, and the
supplier's script. -/
structure State where
  /-- working state (R20) -/
  v0 : Word
  v1 : Word
  v2 : Word
  v3 : Word
  /-- the message word being processed (R22) -/
  mreg : Word
  /-- the word in `mreg` is a FINAL's (R23) -/
  lastblk : Bool
  /-- bytes absorbed since INIT, modulo 256 (R24) -/
  blen : BitVec 8
  /-- the control state machine (R25) -/
  fsm : Fsm
  /-- rounds already applied in the current phase (R26) -/
  rc : BitVec 3
  /-- the tag (R27) -/
  tagreg : Word
  /-- a command was rejected since reset or CLEAR (R28) -/
  err : Bool
  /-- the first such rejection (R28) -/
  errcode : ErrCode
  /-- parameters fixed at synthesis (43_sequencer R170, R179); no register -/
  config : Config
  /-- what the supplier has still to drive; no register of the block, which "does not queue commands" (41_control_commands R122) -/
  supplier : List Stimulus
deriving DecidableEq, Repr

/-- Nothing the block does is a fault that stops it: an error is recorded and "the block continues with the next command"
(60_exceptions R205). So there is no constructor: no step can fault. -/
inductive Fault where
deriving DecidableEq, Repr

/-- Why a step gives no next state. -/
inductive Refusal where
  /-- exec has no meaning for this command yet; no arm raises it. Safe. -/
  | notModelled (mnemonic : String)
  /-- raised by the compression edge with `rc >= 2` and the finalization edge with `rc >= 4`: states the spec calls
  unreachable and tells a model to refuse (93 I6). Safe: no state that meets the invariant raises it. -/
  | roundCountOutOfRange
deriving DecidableEq, Repr

/-- What a step, an edge or a meaning answers. -/
abbrev Result := Host.Outcome State Fault Refusal

/-- The machine right after a reset edge (10_state R43), built as the reference design, with a supplier that has nothing to
do (log 3, log 5). -/
def State.reset : State :=
  { v0 := 0, v1 := 0, v2 := 0, v3 := 0, mreg := 0, lastblk := false, blen := 0, fsm := .unkeyed, rc := 0, tagreg := 0,
    err := false, errcode := .none, config := .reference, supplier := [] }

end Sys2Proof.Machine
end

