-- ==== Sys2Proof/Machine/Flags.lean ====
section
/-! DEFINITION. What the ports show: `cmd_ready`, `tag_valid`, `tag` and the STATUS word (10_state R36-R39). Every output is a
function of the registers, and `cmd_ready` of `rst` too (43_sequencer R180). -/

namespace Sys2Proof.Machine

/-- The 3-bit code of a sequencer state (10_state R25). -/
def Fsm.code : Fsm → BitVec 3
  | .unkeyed => 0
  | .ready => 1
  | .comp => 2
  | .fin => 3
  | .done => 4

/-- The column "accepts commands" of 10_state R25. -/
def Fsm.accepts : Fsm → Bool
  | .unkeyed => true
  | .ready => true
  | .comp => false
  | .fin => false
  | .done => true

/-- The 2-bit code of an error (10_state R28, 60_exceptions R200). -/
def ErrCode.code : ErrCode → BitVec 2
  | .none => 0
  | .illegal => 1
  | .seq => 2

/-- `cmd_ready` while `rst` has the given value (10_state R37). -/
def State.cmdReady (s : State) (rst : Bool) : Bool := !rst && s.fsm.accepts

/-- `tag_valid` (10_state R38). -/
def State.tagValid (s : State) : Bool := decide (s.fsm = .done)

/-- `tag` (10_state R38). -/
def State.tag (s : State) : Word := s.tagreg

/-- STATUS.BUSY: `fsm` is COMP or FIN (10_state R39). -/
def State.busy (s : State) : Bool := decide (s.fsm = .comp) || decide (s.fsm = .fin)

/-- The STATUS word: BLEN [15:8], ERRCODE [7:6], ERR [5], TAG_VALID [4], BUSY [3], FSM [2:0] (10_state R39). -/
def State.status (s : State) : BitVec 16 :=
  s.blen ++ s.errcode.code ++ BitVec.ofBool s.err ++ BitVec.ofBool s.tagValid ++ BitVec.ofBool s.busy ++ s.fsm.code

end Sys2Proof.Machine
end

