-- ==== Sys2Proof/Machine/Operands.lean ====
section
/-! DEFINITION. How a message word is put together from bytes: packing (20_memory R53), masking (00_scope R9) and the final-block
constructor (42_message_commands R144). -/

namespace Sys2Proof.Machine

/-- `mask_bytes(n) = 2^(8n) - 1`, the low `n` bytes all ones, for `0 <= n <= 8` (00_scope R9). -/
def maskBytes (n : Nat) : Word := (1 <<< (8 * n)) - 1

/-- Byte `i` of a word, `w[8i+7:8i]` (00_scope R8). -/
def byteOf (w : Word) (i : Nat) : Byte := w.extractLsb' (8 * i) 8

/-- The loop of `le_word` from index `i` on with `w` so far (20_memory R53). -/
def leWordFrom (i : Nat) (w : Word) : List Byte → Word
  | [] => w
  | b :: bs => leWordFrom (i + 1) (w ||| (b.zeroExtend 64 <<< (8 * i))) bs

/-- `le_word(B)`, for at most 8 bytes: byte `i` of the sequence in lane `i` (20_memory R53). -/
def leWord (bytes : List Byte) : Word := leWordFrom 0 0 bytes

/-- The final-block constructor (42_message_commands R144): the low `nb` bytes of `t`, and `L` in byte 7. -/
def finalWord (L : BitVec 8) (nb : Nat) (t : Word) : Word :=
  (t &&& maskBytes nb) ||| (L.zeroExtend 64 <<< 56)

end Sys2Proof.Machine
end

