-- ==== Sys2Proof/Machine/SipRound.lean ====
section
/-! DEFINITION. The SipRound datapath (40_sipround R100-R111). Addition and exclusive-or are those of 64-bit words (R100, R101). -/

namespace Sys2Proof.Machine

/-- The 4-tuple `(v0, v1, v2, v3)` a round reads and writes. -/
structure Quad where
  v0 : Word
  v1 : Word
  v2 : Word
  v3 : Word
deriving DecidableEq, Repr

/-- `rotl(x, b)`, 64-bit left rotation for `1 <= b <= 63` (R102). -/
def rotl (x : Word) (b : Nat) : Word := (x <<< b) ||| (x >>> (64 - b))

/-- SipRound in the statement order of R103. -/
def sipRound (v : Quad) : Quad :=
  let v0 := v.v0 + v.v1
  let v2 := v.v2 + v.v3
  let v1 := rotl v.v1 13
  let v3 := rotl v.v3 16
  let v1 := v1 ^^^ v0
  let v3 := v3 ^^^ v2
  let v0 := rotl v0 32
  let v2 := v2 + v1
  let v0 := v0 + v3
  let v1 := rotl v1 17
  let v3 := rotl v3 21
  let v1 := v1 ^^^ v2
  let v3 := v3 ^^^ v0
  let v2 := rotl v2 32
  { v0 := v0, v1 := v1, v2 := v2, v3 := v3 }

/-- SipRound in single-assignment form (R104). -/
def sipRoundSsa (v : Quad) : Quad :=
  let a0 := v.v0 + v.v1
  let c0 := v.v2 + v.v3
  let b1 := rotl v.v1 13 ^^^ a0
  let d1 := rotl v.v3 16 ^^^ c0
  let a1 := rotl a0 32
  let c2 := c0 + b1
  let a2 := a1 + d1
  let b2 := rotl b1 17 ^^^ c2
  let d2 := rotl d1 21 ^^^ a2
  let c3 := rotl c2 32
  { v0 := a2, v1 := b2, v2 := c3, v3 := d2 }

/-- The half-round `HALF(a, b, c, d, s, t)`, its four words as the fields of a quad in that order (R105). -/
def halfRound (q : Quad) (s t : Nat) : Quad :=
  let a := q.v0 + q.v1
  let c := q.v2 + q.v3
  let b := rotl q.v1 s
  let d := rotl q.v3 t
  let b := b ^^^ a
  let d := d ^^^ c
  let a := rotl a 32
  { v0 := a, v1 := b, v2 := c, v3 := d }

/-- The 2-way operand permutation of R106: the roles of `v0` and `v2` exchanged. -/
def Quad.exchange (q : Quad) : Quad := { v0 := q.v2, v1 := q.v1, v2 := q.v0, v3 := q.v3 }

/-- SipRound as two half-rounds, the second with permuted routing (R106). -/
def sipRoundPermuted (v : Quad) : Quad :=
  (halfRound (halfRound v 13 16).exchange 17 21).exchange

/-- `f^n`: `f^0(v) = v` and `f^(n+1)(v) = f(f^n(v))` (R108). -/
def chainOf (f : Quad → Quad) : Nat → Quad → Quad
  | 0, v => v
  | n + 1, v => f (chainOf f n v)

/-- `SipRound^n` (R108). -/
def sipRounds (n : Nat) (v : Quad) : Quad := chainOf sipRound n v

/-- Stage `j` of an unrolled chain of half-rounds: an even stage is a round's first half, an odd one its second (R106, R108). -/
def halfStage (j : Nat) (v : Quad) : Quad :=
  if j % 2 = 0 then halfRound v 13 16 else (halfRound v.exchange 17 21).exchange

/-- `n` half-round stages in a row, stage 0 first (R108). -/
def halfStages : Nat → Quad → Quad
  | 0, v => v
  | n + 1, v => halfStage n (halfStages n v)

/-- The combinational chain of `k` rounds as a datapath builds it (R107, R108; 43_sequencer R179). -/
def datapathRounds (d : Datapath) (k : Nat) (v : Quad) : Quad :=
  match d with
  | .sequential => sipRounds k v
  | .singleAssignment => chainOf sipRoundSsa k v
  | .permuted => chainOf sipRoundPermuted k v
  | .halfStages => halfStages (2 * k) v

/-- `rotr(x, b) = rotl(x, 64 - b)` (R111). -/
def rotr (x : Word) (b : Nat) : Word := rotl x (64 - b)

/-- The inverse of SipRound (R111); no command uses it. -/
def sipRoundInv (q : Quad) : Quad :=
  let a2 := q.v0
  let b2 := q.v1
  let c3 := q.v2
  let d2 := q.v3
  let c2 := rotr c3 32
  let b1 := rotr (b2 ^^^ c2) 17
  let d1 := rotr (d2 ^^^ a2) 21
  let a1 := a2 - d1
  let c0 := c2 - b1
  let a0 := rotr a1 32
  let v1 := rotr (b1 ^^^ a0) 13
  let v3 := rotr (d1 ^^^ c0) 16
  let v0 := a0 - v1
  let v2 := c0 - v3
  { v0 := v0, v1 := v1, v2 := v2, v3 := v3 }

end Sys2Proof.Machine
end

