-- ==== Sys2Proof/Machine/Hash.lean ====
section
/-! DEFINITION. The document's algorithm, with no clock: initialization, compression, finalization, folding and the whole hash
(41_control_commands R125; 42_message_commands R141, R147, R148, R150). -/

namespace Sys2Proof.Machine

/-- The state words INIT sets: the four constants of 41_control_commands R125 with the key (R124). -/
def initQuad (k0 k1 : Word) : Quad :=
  { v0 := 0x736f6d6570736575 ^^^ k0
    v1 := 0x646f72616e646f6d ^^^ k1
    v2 := 0x6c7967656e657261 ^^^ k0
    v3 := 0x7465646279746573 ^^^ k1 }

/-- Compression of a word `w`: into `v3`, two rounds, into `v0` (42_message_commands R141). -/
def compress (v : Quad) (w : Word) : Quad :=
  let v := { v with v3 := v.v3 ^^^ w }
  let v := sipRounds 2 v
  { v with v0 := v.v0 ^^^ w }

/-- Finalization: 0xff into `v2`, four rounds (42_message_commands R147). -/
def finalize (v : Quad) : Quad :=
  let v := { v with v2 := v.v2 ^^^ 0xff }
  sipRounds 4 v

/-- Folding (42_message_commands R148). -/
def fold (v : Quad) : Word := v.v0 ^^^ v.v1 ^^^ v.v2 ^^^ v.v3

/-- Block `j` of a message: its bytes `8j` to `8j + 7` (42_message_commands R150). -/
def blockBytes (msg : List Byte) (j : Nat) : List Byte := (msg.drop (8 * j)).take 8

/-- The trailing bytes of a message, `msg[8n .. len-1]` with `n = floor(len / 8)` (42_message_commands R150). -/
def tailBytes (msg : List Byte) : List Byte := msg.drop (8 * (msg.length / 8))

/-- The state after the message's first `n` full blocks (42_message_commands R150, the loop). -/
def absorbBlocks (v : Quad) (msg : List Byte) : Nat → Quad
  | 0 => v
  | n + 1 => compress (absorbBlocks v msg n) (leWord (blockBytes msg n))

/-- The final word of a message (42_message_commands R150). -/
def messageFinalWord (msg : List Byte) : Word :=
  finalWord (BitVec.ofNat 8 (msg.length % 256)) (msg.length % 8) (leWord (tailBytes msg))

/-- The reference function the block is held to (42_message_commands R150). -/
def sipHash24 (k0 k1 : Word) (msg : List Byte) : Word :=
  fold (finalize (compress (absorbBlocks (initQuad k0 k1) msg (msg.length / 8)) (messageFinalWord msg)))

end Sys2Proof.Machine
end

