-- ==== Sys2Proof/Machine/Ops.lean ====
section
/-! DEFINITION. The named operations over the registers: reading and writing the working state, recording an error, clearing,
loading a key and taking in a message word. -/

namespace Sys2Proof.Machine

/-- The working state `(v0, v1, v2, v3)` (10_state R20). -/
def State.vs (s : State) : Quad := { v0 := s.v0, v1 := s.v1, v2 := s.v2, v3 := s.v3 }

/-- Write the working state. -/
def State.withVs (s : State) (q : Quad) : State := { s with v0 := q.v0, v1 := q.v1, v2 := q.v2, v3 := q.v3 }

/-- `raise Err(code)` (60_exceptions R203), the one way an error is taken: the first error is kept, nothing else changes
(R201). There is no trap and so no return (R205). -/
def State.raiseErr (s : State) (code : ErrCode) : State :=
  if s.err then s else { s with err := true, errcode := code }

/-- Every register at its value of 10_state R43, which is what CLEAR and a reset edge do (41_control_commands R128,
70_reset_and_hazards R220). The error record is cleared by this alone (60_exceptions R204). -/
def State.zeroized (s : State) : State := { State.reset with config := s.config, supplier := s.supplier }

/-- The registers INIT writes (41_control_commands R124); the error record is not among them. -/
def State.keyed (s : State) (k0 k1 : Word) : State :=
  { s.withVs (initQuad k0 k1) with mreg := 0, lastblk := false, blen := 0, rc := 0, tagreg := 0, fsm := .ready }

/-- The accept edge that BLOCK and FINAL share (42_message_commands R140, R143): latch the word `w`, XOR it into `v3`, set the
length so far and `lastblk`, and start the compression rounds. -/
def State.takeWord (s : State) (w : Word) (len : BitVec 8) (last : Bool) : State :=
  { s with mreg := w, v3 := s.v3 ^^^ w, blen := len, lastblk := last, rc := 0, fsm := .comp }

/-- The accept edge of an illegal command: consumed, ERR_ILLEGAL, nothing else (30_encoding R75, 41_control_commands R121). -/
def execIllegal (s : State) : Result := .next (s.raiseErr .illegal)

end Sys2Proof.Machine
end

