-- ==== Sys2Proof/Machine/Control.lean ====
section
/-! DEFINITION. The control commands NOP, INIT and CLEAR (41_control_commands R123, R124, R128). Each meaning is the command's
accept edge; the machine calls it only at an edge that accepts the command (R120; log 8). -/

namespace Sys2Proof.Machine

/-- NOP: "(nothing)" (41_control_commands R123). -/
def execNop (s : State) : Result := .next s

/-- INIT k0, k1 (41_control_commands R124). -/
def execInit (k0 k1 : Word) (s : State) : Result := .next (s.keyed k0 k1)

/-- CLEAR (41_control_commands R128). -/
def execClear (s : State) : Result := .next s.zeroized

end Sys2Proof.Machine
end

