-- ==== Sys2Proof/Machine/Message.lean ====
section
/-! DEFINITION. The message commands BLOCK and FINAL (42_message_commands R140, R143): the accept edge, which latches the word and
starts the rounds. The rounds run at later edges (43_sequencer R172, R173). -/

namespace Sys2Proof.Machine

/-- BLOCK m: accepted in READY, else ERR_SEQ (42_message_commands R140). -/
def execBlock (m : Word) (s : State) : Result :=
  if s.fsm ≠ .ready then .next (s.raiseErr .seq)
  else .next (s.takeWord m (s.blen + 8) false)

/-- FINAL nb, t: accepted in READY, else ERR_SEQ; the final word carries the total length modulo 256 (42_message_commands R143,
R145). -/
def execFinal (nb : Nat) (t : Word) (s : State) : Result :=
  if s.fsm ≠ .ready then .next (s.raiseErr .seq)
  else
    let len := s.blen + BitVec.ofNat 8 nb
    .next (s.takeWord (finalWord len nb t) len true)

end Sys2Proof.Machine
end

