-- ==== Sys2Proof/Machine/Dispatch.lean ====
section
/-! DEFINITION. One arm per command: its accept edge (41_control_commands R121). -/

namespace Sys2Proof.Machine

def exec (i : Instr) (s : State) : Host.Outcome State Fault Refusal :=
  match i with
  | .nop => Sys2Proof.Machine.execNop s
  | .init k0 k1 => Sys2Proof.Machine.execInit k0 k1 s
  | .block m => Sys2Proof.Machine.execBlock m s
  | .final nb t => Sys2Proof.Machine.execFinal nb t s
  | .clear => Sys2Proof.Machine.execClear s

end Sys2Proof.Machine
end

