-- ==== Sys2Proof/Machine/Sequencer.lean ====
section
/-! DEFINITION. The edges at which no command is accepted (43_sequencer R172-R174), and the edge counts (R176). -/

namespace Sys2Proof.Machine

/-- `U` as a number (43_sequencer R170). -/
def roundsEachEdge (s : State) : Nat :=
  match s.config.roundsPerCycle with
  | .one => 1
  | .two => 2
  | .four => 4

/-- The rounds an edge applies when `total` make up the phase: `min(U, total - rc)` (43_sequencer R172, R173). -/
def roundsNow (s : State) (total : Nat) : Nat := min (roundsEachEdge s) (total - s.rc.toNat)

/-- The working state after `k` rounds of the datapath the block was built with. -/
def State.afterRounds (s : State) (k : Nat) : Quad := datapathRounds s.config.datapath k s.vs

/-- An edge inside a phase, not its last: the rounds' result and the new round count (43_sequencer R172, R173). -/
def State.midPhase (s : State) (k : Nat) : State :=
  { s.withVs (s.afterRounds k) with rc := s.rc + BitVec.ofNat 3 k }

/-- The edge of the last compression round: `mreg` into `v0`, and for a final word 0xff into `v2` and on to FIN
(43_sequencer R172). -/
def State.compressed (s : State) (k : Nat) : State :=
  let w := s.afterRounds k
  if s.lastblk then
    { s.withVs { w with v0 := w.v0 ^^^ s.mreg, v2 := w.v2 ^^^ 0xff } with rc := 0, fsm := .fin }
  else
    { s.withVs { w with v0 := w.v0 ^^^ s.mreg } with rc := 0, fsm := .ready }

/-- The edge of the last finalization round: the fold into `tagreg` and on to DONE (43_sequencer R173). -/
def State.finalized (s : State) (k : Nat) : State :=
  { s.withVs (s.afterRounds k) with tagreg := fold (s.afterRounds k), rc := 0, fsm := .done }

/-- Compression edge (43_sequencer R172). `rc >= 2` in COMP is unreachable and refused (93 I6, log 7). -/
def compressionEdge (s : State) : Result :=
  let k := roundsNow s 2
  if 2 ≤ s.rc.toNat then .refused .roundCountOutOfRange
  else if s.rc.toNat + k = 2 then .next (s.compressed k)
  else .next (s.midPhase k)

/-- Finalization edge (43_sequencer R173). `rc >= 4` in FIN is unreachable and refused (93 I6, log 7). -/
def finalizationEdge (s : State) : Result :=
  let k := roundsNow s 4
  if 4 ≤ s.rc.toNat then .refused .roundCountOutOfRange
  else if s.rc.toNat + k = 4 then .next (s.finalized k)
  else .next (s.midPhase k)

/-- Hold edge: no register changes (43_sequencer R174). -/
def holdEdge (s : State) : Result := .next s

/-- `ceil(total / U)`, the round edges of a phase (43_sequencer R176). -/
def phaseEdges (s : State) (total : Nat) : Nat := (total + roundsEachEdge s - 1) / roundsEachEdge s

/-- Edges from accepting a BLOCK to `cmd_ready = 1`, both included (43_sequencer R176). -/
def blockEdges (s : State) : Nat := 1 + phaseEdges s 2

/-- Edges from accepting a FINAL in READY to `cmd_ready = 1`, both included (43_sequencer R176). -/
def finalEdges (s : State) : Nat := 1 + phaseEdges s 2 + phaseEdges s 4

/-- Edges of a `len`-byte hash, from accepting the INIT to the edge that sets `tag_valid` (43_sequencer R176). -/
def hashEdges (s : State) (len : Nat) : Nat := 1 + len / 8 * blockEdges s + finalEdges s

end Sys2Proof.Machine
end

