-- ==== Sys2Proof/WellFormed.lean ====
section
/-! DEFINITION. The one check on an instruction: the tail count of FINAL is "0 to 7" (30_encoding R71, R77). -/

namespace Sys2Proof

/-- An instruction that some command encodes: NB is a 3-bit number, so FINAL has at most 7 tail bytes (30_encoding R71). -/
def Instr.wellFormed : Instr → Bool
  | .nop => true
  | .init _ _ => true
  | .block _ => true
  | .final nb _ => decide (nb ≤ 7)
  | .clear => true

end Sys2Proof
end

