-- ==== Sys2Proof/Decode.lean ====
section
/-! DEFINITION. The decoder and the encoder of the command format (30_encoding R70-R75). -/

namespace Sys2Proof

/-! ## Fields of a command (R70, R71) -/

/-- CTRL[2:0], OP -/
def ctrlOp (ctrl : BitVec 8) : BitVec 3 := ctrl.extractLsb' 0 3

/-- CTRL[5:3], NB -/
def ctrlNb (ctrl : BitVec 8) : BitVec 3 := ctrl.extractLsb' 3 3

/-- CTRL[7:6], RSV -/
def ctrlRsv (ctrl : BitVec 8) : BitVec 2 := ctrl.extractLsb' 6 2

/-- The three fields of a 136-bit command word: CTRL in [7:0], D0 in [71:8], D1 in [135:72] (R70). -/
def Command.ofWord (w : BitVec 136) : Command :=
  { ctrl := w.extractLsb' 0 8, d0 := w.extractLsb' 8 64, d1 := w.extractLsb' 72 64 }

/-- The 136-bit word of a command, `{D1, D0, CTRL}` (R70). -/
def Command.toWord (c : Command) : BitVec 136 := c.d1 ++ c.d0 ++ c.ctrl

/-! ## Decoding -/

/-- Why a CTRL value is illegal (R75). -/
inductive IllegalCtrl where
  /-- RSV is not 00 -/
  | reservedBits
  /-- OP is 101, 110 or 111 -/
  | reservedOp
  /-- NB is not 000 with OP other than FINAL -/
  | unusedNb
deriving DecidableEq, Repr

/-- What a command decodes to. -/
inductive Decoded where
  | instr (i : Instr)
  | illegal (why : IllegalCtrl)
deriving DecidableEq, Repr

/-- A command whose OP takes no NB: legal only with NB = 000 (R71). -/
def Decoded.withoutNb (ctrl : BitVec 8) (i : Instr) : Decoded :=
  if ctrlNb ctrl = 0 then .instr i else .illegal .unusedNb

/-- The decoder, total on every command: the opcode map of R73 with the operands of R72; everything else is illegal (R75). -/
def decode (c : Command) : Decoded :=
  if ctrlRsv c.ctrl ≠ 0 then .illegal .reservedBits
  else
    match (ctrlOp c.ctrl).toNat with
    | 0 => .withoutNb c.ctrl .nop
    | 1 => .withoutNb c.ctrl (.init c.d0 c.d1)
    | 2 => .withoutNb c.ctrl (.block c.d0)
    | 3 => .instr (.final (ctrlNb c.ctrl).toNat c.d0)
    | 4 => .withoutNb c.ctrl .clear
    | _ => .illegal .reservedOp

/-- The legality predicate on CTRL, as R74 writes it. -/
def legal (ctrl : BitVec 8) : Bool :=
  let op := (ctrlOp ctrl).toNat
  let nb := (ctrlNb ctrl).toNat
  let rsv := (ctrlRsv ctrl).toNat
  if rsv ≠ 0 then false
  else if op = 3 then true
  else if (op = 0 ∨ op = 1 ∨ op = 2 ∨ op = 4) ∧ nb = 0 then true
  else false

/-! ## Encoding -/

/-- The command of an instruction (R73, R77), with every ignored operand field 0: "an omitted D0 or D1 is 0" (R77). -/
def encode : Instr → Command
  | .nop => { ctrl := 0x00, d0 := 0, d1 := 0 }
  | .init k0 k1 => { ctrl := 0x01, d0 := k0, d1 := k1 }
  | .block m => { ctrl := 0x02, d0 := m, d1 := 0 }
  | .final nb t => { ctrl := 0x03 ||| (BitVec.ofNat 8 nb <<< 3), d0 := t, d1 := 0 }
  | .clear => { ctrl := 0x04, d0 := 0, d1 := 0 }

/-! ## The opcode table's numbering -/

/-- The command whose bits, numbered as spec/opcode_table.json numbers them (R70), are the low `nbits` bits of `w`, every
higher bit 0. The table decodes CTRL alone, so with `nbits` 8 both data words are 0 (log 10). -/
def tableCommand (nbits w : Nat) : Command := Command.ofWord (BitVec.ofNat 136 (w % 2 ^ nbits))

/-- The instruction the decoder reads from a table word, none where it refuses. -/
def decodeTableWord (nbits w : Nat) : Option Instr :=
  match decode (tableCommand nbits w) with
  | .instr i => some i
  | .illegal _ => none

end Sys2Proof
end

