-- ==== Sys2Proof/Machine/Supplier.lean ====
section
/-! DEFINITION. The supplier: what it drives on the input ports at the next edge and what is left of its script after it
(30_encoding R76, R77, R79; 70_reset_and_hazards R224; log 2). -/

namespace Sys2Proof.Machine

/-- The script from its first item that still has something to drive: a WAIT is over when `cmd_ready = 1`, a WAITTAG when
`tag_valid = 1` (30_encoding R79). A wait that is over takes no edge (log 9). -/
def State.dueOf (s : State) : List Stimulus → List Stimulus
  | [] => []
  | .edge p :: rest => .edge p :: rest
  | .present c :: rest => .present c :: rest
  | .wait :: rest => if s.cmdReady false then s.dueOf rest else .wait :: rest
  | .waitTag :: rest => if s.tagValid then s.dueOf rest else .waitTag :: rest

/-- The script still due before the next edge. -/
def State.due (s : State) : List Stimulus := s.dueOf s.supplier

/-- The ports when the supplier presents nothing: `rst` and `cmd_valid` are 0, the command port carries any value (93 I7,
log 4). -/
def idlePorts : PortIn := { rst := false, cmdValid := false, cmd := Command.ofWord Config.idleCommand }

/-- The port values at the next edge. A supplier with nothing left to do is idle (log 2). -/
def State.ports (s : State) : PortIn :=
  match s.due with
  | [] => idlePorts
  | .edge p :: _ => p
  | .present c :: _ => { rst := false, cmdValid := true, cmd := c }
  | .wait :: _ => idlePorts
  | .waitTag :: _ => idlePorts

/-- The script after the next edge: a raw edge is over, a presented command is over if that edge accepts it. -/
def State.scriptAfter (s : State) : List Stimulus :=
  match s.due with
  | [] => []
  | .edge _ :: rest => rest
  | .present c :: rest => if s.cmdReady false then rest else .present c :: rest
  | .wait :: rest => .wait :: rest
  | .waitTag :: rest => .waitTag :: rest

/-- The state with another script. -/
def State.withSupplier (s : State) (script : List Stimulus) : State := { s with supplier := script }

/-- Put one command at the front of the script, held until it is accepted. -/
def State.presentNext (s : State) (c : Command) : State := s.withSupplier (.present c :: s.supplier)

end Sys2Proof.Machine
end

