-- ==== Sys2Proof/Machine/Edge.lean ====
section
/-! DEFINITION. One rising edge of `clk` under given port values (43_sequencer R171). -/

namespace Sys2Proof.Machine

/-- Accept a command: decode it and execute it, all within the edge; an illegal one raises ERR_ILLEGAL whatever the state
(41_control_commands R121, 60_exceptions R202). -/
def accept (c : Command) (s : State) : Result :=
  match decode c with
  | .instr i => exec i s
  | .illegal _ => execIllegal s

/-- A reset edge: every register at its reset value, whatever the state and the command port (70_reset_and_hazards R220). -/
def resetEdge (s : State) : Result := .next s.zeroized

/-- The edge at which no command is accepted and `rst = 0`, chosen by `fsm` (43_sequencer R171). -/
def sequencerEdge (s : State) : Result :=
  match s.fsm with
  | .comp => compressionEdge s
  | .fin => finalizationEdge s
  | .unkeyed => holdEdge s
  | .ready => holdEdge s
  | .done => holdEdge s

/-- An edge accepts a command iff `rst = 0`, `cmd_valid = 1` and `cmd_ready = 1` (41_control_commands R120). -/
def State.acceptsAt (s : State) (p : PortIn) : Bool := !p.rst && p.cmdValid && s.cmdReady p.rst

/-- Exactly one thing happens at an edge, the first that applies: reset, an accepted command, a round, hold (43_sequencer
R171). -/
def edge (p : PortIn) (s : State) : Result :=
  if p.rst then resetEdge s
  else if s.acceptsAt p then accept p.cmd s
  else sequencerEdge s

/-- Edges in a row under a list of port values, stopping at a refusal. -/
def edges : List PortIn → State → Result
  | [], s => .next s
  | p :: ps, s =>
    match edge p s with
    | .next t => edges ps t
    | .fault r => .fault r
    | .refused r => .refused r

end Sys2Proof.Machine
end

