-- ==== Sys2Proof/Machine/Step.lean ====
section
/-! DEFINITION. One step of the machine: the supplier drives the ports and one edge happens (43_sequencer R171; log 1). -/

namespace Sys2Proof.Machine

/-- One rising edge under the port values the supplier drives; the script moves on with it. -/
def step (s : State) : Host.Outcome State Fault Refusal :=
  edge s.ports (s.withSupplier s.scriptAfter)

/-- `s` with a table word's command at the front of the supplier's script, held until accepted: the next step accepts it if
`cmd_ready = 1`, as after reset (log 3). -/
def State.withFetchWord (s : State) (nbits w : Nat) : State := s.presentNext (tableCommand nbits w)

end Sys2Proof.Machine
end

