-- ==== Sys2Proof/Machine/Assembler.lean ====
section
/-! DEFINITION. Programs: the lines of 30_encoding R77-R80, as data and as text, and the supplier's script each stands for. -/

namespace Sys2Proof.Machine

/-- One line of a program (30_encoding R77-R80). -/
inductive Line where
  | nop
  | init (k0 k1 : Word)
  | block (m : Word)
  | final (nb : Nat) (t : Word)
  | clear
  /-- any CTRL, including illegal ones (R77) -/
  | raw (ctrl : BitVec 8) (d0 d1 : Word)
  /-- a BLOCK written as its 8 bytes (R78) -/
  | blockb (bytes : List Byte)
  /-- a FINAL written as its 0 to 7 bytes (R78) -/
  | finalb (bytes : List Byte)
  | wait
  | waitTag
  /-- the pseudo-command of R80 -/
  | hash (k0 k1 : Word) (msg : List Byte)
deriving DecidableEq, Repr

/-- The commands of `HASH k0, k1, msg`: INIT, one BLOCK for each full block, one FINAL for the rest (R80). -/
def hashCommands (k0 k1 : Word) (msg : List Byte) : List Instr :=
  .init k0 k1 :: (List.range (msg.length / 8)).map (fun j => .block (leWord (blockBytes msg j)))
    ++ [.final (msg.length % 8) (leWord (tailBytes msg))]

/-- A list of commands as the supplier's script, each held until accepted (R77, 70_reset_and_hazards R224). -/
def scriptOf (is : List Instr) : List Stimulus := is.map (fun i => .present (encode i))

/-- The script of `HASH k0, k1, msg` (R80). -/
def hashScript (k0 k1 : Word) (msg : List Byte) : List Stimulus := scriptOf (hashCommands k0 k1 msg) ++ [.waitTag]

/-- The script a line stands for; none where its operands are outside the form's range (R77, R78). -/
def Line.script : Line → Option (List Stimulus)
  | .nop => some (scriptOf [.nop])
  | .init k0 k1 => some (scriptOf [.init k0 k1])
  | .block m => some (scriptOf [.block m])
  | .final nb t => if nb ≤ 7 then some (scriptOf [.final nb t]) else none
  | .clear => some (scriptOf [.clear])
  | .raw ctrl d0 d1 => some [.present { ctrl := ctrl, d0 := d0, d1 := d1 }]
  | .blockb bytes => if bytes.length = 8 then some (scriptOf [.block (leWord bytes)]) else none
  | .finalb bytes => if bytes.length ≤ 7 then some (scriptOf [.final bytes.length (leWord bytes)]) else none
  | .wait => some [.wait]
  | .waitTag => some [.waitTag]
  | .hash k0 k1 msg => some (hashScript k0 k1 msg)

/-- The script of a program, its lines in order (R77). -/
def programScript : List Line → Option (List Stimulus)
  | [] => some []
  | l :: ls =>
    match l.script, programScript ls with
    | some a, some b => some (a ++ b)
    | _, _ => none

/-! ## The text of a line (R77, R78, R80; log 13) -/

/-- The text before a comment, which `--` starts (R77). -/
def beforeComment : List Char → List Char
  | [] => []
  | [c] => [c]
  | c :: d :: cs => if c = '-' ∧ d = '-' then [] else c :: beforeComment (d :: cs)

/-- Blanks and commas stand between the parts of a line. -/
def isSeparator (c : Char) : Bool := c == ' ' || c == '\t' || c == '\r' || c == ','

/-- The parts of a line; `part` is the part being read. -/
def partsFrom (part : List Char) : List Char → List (List Char)
  | [] => if part.isEmpty then [] else [part]
  | c :: cs =>
    if isSeparator c then
      if part.isEmpty then partsFrom [] cs else part :: partsFrom [] cs
    else partsFrom (part ++ [c]) cs

/-- The value of a digit in base 16. -/
def hexDigit (c : Char) : Option Nat :=
  let n := c.toNat
  if 48 ≤ n ∧ n ≤ 57 then some (n - 48)
  else if 97 ≤ n ∧ n ≤ 102 then some (n - 87)
  else if 65 ≤ n ∧ n ≤ 70 then some (n - 55)
  else none

/-- A number's digits in a base, most significant first, with `sofar` read already. -/
def digitsFrom (base sofar : Nat) : List Char → Option Nat
  | [] => some sofar
  | c :: cs =>
    match hexDigit c with
    | some d => if d < base then digitsFrom base (sofar * base + d) cs else none
    | none => none

/-- A nonempty run of digits. -/
def digits (base : Nat) : List Char → Option Nat
  | [] => none
  | cs => digitsFrom base 0 cs

/-- A number: hexadecimal with `0x`, else in the base given (R77: decimal). -/
def number (base : Nat) : List Char → Option Nat
  | '0' :: 'x' :: cs => digits 16 cs
  | cs => digits base cs

/-- A number that fits in `w` bits. -/
def bitsOf (w base : Nat) (cs : List Char) : Option (BitVec w) :=
  match number base cs with
  | some n => if n < 2 ^ w then some (BitVec.ofNat w n) else none
  | none => none

/-- The words of a line's operands. -/
def wordsOf : List (List Char) → Option (List Word)
  | [] => some []
  | p :: ps =>
    match bitsOf 64 10 p, wordsOf ps with
    | some w, some ws => some (w :: ws)
    | _, _ => none

/-- The bytes of a byte-list form, hexadecimal as the programs of 95_test_vectors write them. -/
def bytesOf : List (List Char) → Option (List Byte)
  | [] => some []
  | p :: ps =>
    match bitsOf 8 16 p, bytesOf ps with
    | some b, some bs => some (b :: bs)
    | _, _ => none

/-- A command line of at most `most` data words, an omitted one 0 (R77). -/
def dataLine (most : Nat) (make : Word → Word → Line) (ps : List (List Char)) : Option Line :=
  match wordsOf ps with
  | some ws => if ws.length ≤ most then some (make (ws.getD 0 0) (ws.getD 1 0)) else none
  | none => none

/-- A byte-list line (R78). -/
def byteLine (make : List Byte → Line) (ps : List (List Char)) : Option Line := (bytesOf ps).map make

/-- What the text of a line is. -/
inductive ParsedLine where
  /-- nothing but blanks and a comment -/
  | blank
  | line (l : Line)
  /-- not a line of R77-R80 -/
  | bad
deriving DecidableEq, Repr

/-- The line its parts spell. -/
def lineOf (op : List Char) (ps : List (List Char)) : Option Line :=
  if op = "NOP".toList then dataLine 0 (fun _ _ => .nop) ps
  else if op = "INIT".toList then dataLine 2 .init ps
  else if op = "BLOCK".toList then dataLine 1 (fun m _ => .block m) ps
  else if op = "CLEAR".toList then dataLine 0 (fun _ _ => .clear) ps
  else if op = "WAIT".toList then dataLine 0 (fun _ _ => .wait) ps
  else if op = "WAITTAG".toList then dataLine 0 (fun _ _ => .waitTag) ps
  else if op = "BLOCKB".toList then byteLine .blockb ps
  else if op = "FINALB".toList then byteLine .finalb ps
  else
    match ps with
    | a :: rest =>
      if op = "FINAL".toList then (number 10 a).bind (fun nb => dataLine 1 (fun t _ => .final nb t) rest)
      else if op = ".raw".toList then (bitsOf 8 10 a).bind (fun ctrl => dataLine 2 (.raw ctrl) rest)
      else
        match rest with
        | b :: bytes =>
          if op = "HASH".toList then
            match bitsOf 64 10 a, bitsOf 64 10 b with
            | some k0, some k1 => byteLine (.hash k0 k1) bytes
            | _, _ => none
          else none
        | [] => none
    | [] => none

/-- Read the text of one line (R77, R78, R80). -/
def parseLine (text : List Char) : ParsedLine :=
  match partsFrom [] (beforeComment text) with
  | [] => .blank
  | op :: ps =>
    match lineOf op ps with
    | some l => .line l
    | none => .bad

end Sys2Proof.Machine
end

