-- ==== Sys2Proof/Safety.lean ====
section
/-! DEFINITION. What the spec says of every state a run from reset can reach (10_state R25, R26, R28, R30; 93 I5, I6). -/

namespace Sys2Proof.Machine

/-- `0 <= rc < 2` in COMP, `0 <= rc < 4` in FIN, `rc = 0` in every other state (10_state R26). -/
def State.roundCountOk (s : State) : Bool :=
  match s.fsm with
  | .comp => decide (s.rc.toNat < 2)
  | .fin => decide (s.rc.toNat < 4)
  | .unkeyed => decide (s.rc = 0)
  | .ready => decide (s.rc = 0)
  | .done => decide (s.rc = 0)

/-- `tagreg = 0` whenever `fsm != DONE` (10_state R30). -/
def State.tagHidden (s : State) : Bool := decide (s.fsm = .done) || decide (s.tagreg = 0)

/-- `err = 1` exactly when `errcode` names an error (10_state R28, 93 I5). -/
def State.errorRecordOk (s : State) : Bool :=
  match s.errcode with
  | .none => !s.err
  | .illegal => s.err
  | .seq => s.err

/-- `lastblk` is 1 in FIN and DONE, which only a FINAL's word reaches, and 0 in UNKEYED and READY (10_state R23,
43_sequencer R172, R173). DEDUCED from those rules. -/
def State.lastblkOk (s : State) : Bool :=
  match s.fsm with
  | .unkeyed => !s.lastblk
  | .ready => !s.lastblk
  | .comp => true
  | .fin => s.lastblk
  | .done => s.lastblk

/-- In UNKEYED no register holds key or message material (10_state R43; 41_control_commands R128). DEDUCED: UNKEYED is entered
only by CLEAR and reset, and what is accepted there either leaves it or changes only the error record. -/
def State.unkeyedBlank (s : State) : Bool :=
  !decide (s.fsm = .unkeyed) || (decide (s.vs = ⟨0, 0, 0, 0⟩) && decide (s.mreg = 0) && decide (s.blen = 0))

/-- The invariant of the block's registers. -/
def State.Inv (s : State) : Bool :=
  s.roundCountOk && s.tagHidden && s.errorRecordOk && s.lastblkOk && s.unkeyedBlank

/-! ## Terms the statements use -/

/-- The 12 legal CTRL values, as 30_encoding R74 lists them. -/
def legalControls : List (BitVec 8) :=
  [0x00, 0x01, 0x02, 0x04, 0x03, 0x0b, 0x13, 0x1b, 0x23, 0x2b, 0x33, 0x3b]

/-- The 8 CTRL values of FINAL, NB = 0 to 7, as 30_encoding R73 lists them. -/
def finalControls : List (BitVec 8) := [0x03, 0x0b, 0x13, 0x1b, 0x23, 0x2b, 0x33, 0x3b]

/-- The first `n` bytes of a word, byte 0 first (00_scope R8). -/
def firstBytes (n : Nat) (w : Word) : List Byte := (List.range n).map (byteOf w)

/-- The message that BLOCK words `ms` and a FINAL's first `nb` bytes of `t` spell (70_reset_and_hazards R227). -/
def spelledMessage (ms : List Word) (nb : Nat) (t : Word) : List Byte := ms.flatMap (firstBytes 8) ++ firstBytes nb t

/-- The state with the registers that no port reads (`v0..v3` and `mreg`, 60_exceptions R208) blanked. -/
def State.withoutSecrets (s : State) : State := { s.withVs ⟨0, 0, 0, 0⟩ with mreg := 0 }

/-- What an edge that is not reset does to the error record when it accepts a command with this CTRL (60_exceptions R200,
R203, R204). -/
def State.errorRecordAfter (s : State) (ctrl : BitVec 8) : Bool × ErrCode :=
  if ctrl = 0x04 then (false, .none)
  else if s.err then (s.err, s.errcode)
  else if ctrl ∉ legalControls then (true, .illegal)
  else if (ctrl = 0x02 ∨ ctrl ∈ finalControls) ∧ s.fsm ≠ .ready then (true, .seq)
  else (s.err, s.errcode)

end Sys2Proof.Machine
end

