-- ==== Sys2Proof/Certificates/Slice0/Obligations.lean ====
section
/-! DEFINITION. The statements for the provers. Each docstring names the rule of spec/ it rests on. -/

open Sys2Proof Sys2Proof.Machine

/-! ## Encoding -/

/-- Words written out from 30_encoding R70, R73 and 95_test_vectors (P2, P3, section 2.7) decode as they should. -/
def Obligations.SpecWordsDecode : Prop :=
  decodeTableWord 8 0x00 = some .nop ∧
  decodeTableWord 136 0x0f0e0d0c0b0a0908070605040302010001 = some (.init 0x0706050403020100 0x0f0e0d0c0b0a0908) ∧
  decodeTableWord 136 0x0000000000000000070605040302010002 = some (.block 0x0706050403020100) ∧
  decodeTableWord 136 0x0000000000000000000e0d0c0b0a09083b = some (.final 7 0x000e0d0c0b0a0908) ∧
  decodeTableWord 8 0x04 = some .clear ∧
  decodeTableWord 8 0x05 = none ∧ decodeTableWord 8 0x08 = none ∧ decodeTableWord 8 0x40 = none ∧
  decodeTableWord 8 0x83 = none

/-- 30_encoding R74: exactly the 12 listed CTRL values are legal, whatever D0 and D1. -/
def Obligations.ExactlyTwelveControlsAreLegal : Prop :=
  ∀ c : Command,
    ((∃ i, decode c = .instr i) ↔ c.ctrl ∈ legalControls) ∧ (legal c.ctrl = true ↔ c.ctrl ∈ legalControls)

/-- 30_encoding R72: the operands of each command, D0 and D1 whole and NB zero-extended; an ignored field has no part in it.
-/
def Obligations.OperandsAreAssembledFromTheCommand : Prop :=
  ∀ c : Command,
    (c.ctrl = 0x00 → decode c = .instr .nop) ∧
    (c.ctrl = 0x01 → decode c = .instr (.init c.d0 c.d1)) ∧
    (c.ctrl = 0x02 → decode c = .instr (.block c.d0)) ∧
    (∀ nb, nb ≤ 7 → c.ctrl.toNat = 3 + 8 * nb → decode c = .instr (.final nb c.d0)) ∧
    (c.ctrl = 0x04 → decode c = .instr .clear)

/-- Encoding then decoding, through the 136-bit word of 30_encoding R70, gives back every well-formed instruction. -/
def Obligations.DecodeOfEncodeIsTheInstruction : Prop :=
  ∀ i : Instr, i.wellFormed = true → decode (Command.ofWord (encode i).toWord) = .instr i

/-- The other direction: what a command decodes to is well-formed and its encoding has the command's CTRL and decodes alike.
-/
def Obligations.DecodedInstructionEncodesBack : Prop :=
  ∀ (c : Command) (i : Instr), decode c = .instr i →
    i.wellFormed = true ∧ (encode i).ctrl = c.ctrl ∧ decode (encode i) = .instr i

/-! ## Acceptance -/

/-- 41_control_commands R120, R121: an edge that accepts a command runs the instruction it decodes to. -/
def Obligations.StepRunsTheDecodedInstruction : Prop :=
  (∀ (s : State) (i : Instr), s.acceptsAt s.ports = true → decode s.ports.cmd = .instr i →
    step s = exec i (s.withSupplier s.scriptAfter)) ∧
  (∀ (s : State) (c : Command) (rest : List Stimulus) (i : Instr), s.supplier = .present c :: rest →
    s.cmdReady false = true → decode c = .instr i → step s = exec i (s.withSupplier rest)) ∧
  (∀ (s : State) (nbits w : Nat) (i : Instr), s.cmdReady false = true → decodeTableWord nbits w = some i →
    step (s.withFetchWord nbits w) = exec i s)

/-- 41_control_commands R122: an edge that does not accept the command on the port is the edge it would be with no command
on the port, whatever the port's values. -/
def Obligations.UnacceptedCommandHasNoEffect : Prop :=
  ∀ (s : State) (p : PortIn) (c : Command), p.cmdValid = false ∨ s.cmdReady p.rst = false →
    edge p s = edge { rst := p.rst, cmdValid := false, cmd := c } s

/-- 41_control_commands R120: when an edge accepts a command, and that the command accepted is the one on the port then. -/
def Obligations.AcceptanceCondition : Prop :=
  ∀ (s : State) (p : PortIn),
    (s.acceptsAt p = true ↔
      p.rst = false ∧ p.cmdValid = true ∧ (s.fsm = .unkeyed ∨ s.fsm = .ready ∨ s.fsm = .done)) ∧
    (s.acceptsAt p = true ↔ p.rst = false ∧ p.cmdValid = true ∧ s.cmdReady p.rst = true) ∧
    (s.acceptsAt p = true → edge p s = accept p.cmd s)

/-- 43_sequencer R175, which the spec derives from R171 and 10_state R37: an edge that accepts a command is no round edge,
and rounds run only in COMP and FIN. -/
def Obligations.AcceptEdgesAreNoRoundEdges : Prop :=
  ∀ (s : State) (p : PortIn),
    (s.fsm = .comp ∨ s.fsm = .fin → s.acceptsAt p = false) ∧
    (s.fsm ≠ .comp → s.fsm ≠ .fin → p.rst = false → edge p s = accept p.cmd s ∨ edge p s = .next s)

/-- 42_message_commands R153, which the spec derives from R140, R143 and R144: a FINAL does not depend on D0 lanes `nb..7`
nor on D1, a BLOCK not on D1. -/
def Obligations.IgnoredLanesDoNotMatter : Prop :=
  ∀ (s : State) (c d : Command), c.ctrl = d.ctrl →
    (c.ctrl = 0x02 → c.d0 = d.d0 → accept c s = accept d s) ∧
    (∀ nb, nb ≤ 7 → c.ctrl.toNat = 3 + 8 * nb → (∀ i, i < nb → byteOf c.d0 i = byteOf d.d0 i) →
      accept c s = accept d s)

/-- 20_memory R57, 93 I8: D1 of every command but INIT is ignored, D0 of NOP and CLEAR, and both of an illegal command. -/
def Obligations.UnusedDataWordsDoNotMatter : Prop :=
  ∀ (s : State) (c d : Command), c.ctrl = d.ctrl →
    (c.ctrl ≠ 0x01 → c.d0 = d.d0 → accept c s = accept d s) ∧
    (c.ctrl = 0x00 ∨ c.ctrl = 0x04 ∨ c.ctrl ∉ legalControls → accept c s = accept d s)

/-! ## The commands -/

/-- 41_control_commands R123: NOP changes nothing, in every state and at every edge that accepts it; another CTRL with OP = 000
is no NOP but an illegal command. -/
def Obligations.NopChangesNothing : Prop :=
  ∀ s : State, exec .nop s = .next s ∧
    ∀ p : PortIn, s.acceptsAt p = true →
      (p.cmd.ctrl = 0x00 → edge p s = .next s) ∧
      (ctrlOp p.cmd.ctrl = 0 → p.cmd.ctrl ≠ 0x00 → legal p.cmd.ctrl = false ∧ edge p s = execIllegal s)

/-- 41_control_commands R124, R125: what INIT writes and what it keeps, with the constants written out, and what STATUS
shows. -/
def Obligations.InitLoadsTheKey : Prop :=
  ∀ (s : State) (k0 k1 : Word), ∃ t, exec (.init k0 k1) s = .next t ∧
    t.v0 = 0x736f6d6570736575 ^^^ k0 ∧ t.v1 = 0x646f72616e646f6d ^^^ k1 ∧
    t.v2 = 0x6c7967656e657261 ^^^ k0 ∧ t.v3 = 0x7465646279746573 ^^^ k1 ∧
    t.mreg = 0 ∧ t.lastblk = false ∧ t.blen = 0 ∧ t.rc = 0 ∧ t.tagreg = 0 ∧ t.fsm = .ready ∧
    t.err = s.err ∧ t.errcode = s.errcode ∧ t.config = s.config ∧ t.supplier = s.supplier ∧
    t.cmdReady false = true ∧
    t.status = 0#8 ++ s.errcode.code ++ BitVec.ofBool s.err ++ 0b00001#5 ∧
    ∀ p : PortIn, s.acceptsAt p = true → p.cmd = { ctrl := 0x01, d0 := k0, d1 := k1 } → edge p s = .next t

/-- 41_control_commands R128: CLEAR sets every register to its value of 10_state R43, and STATUS to 0; no other command clears
the error record, and no CLEAR is accepted while busy. -/
def Obligations.ClearZeroizesEveryRegister : Prop :=
  ∀ s : State, ∃ t, exec .clear s = .next t ∧
    t = { v0 := 0, v1 := 0, v2 := 0, v3 := 0, mreg := 0, lastblk := false, blen := 0, fsm := .unkeyed, rc := 0,
          tagreg := 0, err := false, errcode := .none, config := s.config, supplier := s.supplier } ∧
    t.status = 0x0000 ∧
    (∀ p : PortIn, s.acceptsAt p = true → p.cmd.ctrl = 0x04 → edge p s = .next t) ∧
    (∀ p : PortIn, s.busy = true → s.acceptsAt p = false) ∧
    (∀ (i : Instr) (u : State), i ≠ .clear → exec i s = .next u → s.err = true → u.err = true ∧ u.errcode = s.errcode)

/-- 42_message_commands R140, the accept edge in READY: what BLOCK writes; everything else is kept. -/
def Obligations.BlockStartsCompression : Prop :=
  ∀ (s : State) (m : Word), s.fsm = .ready →
    exec (.block m) s = .next { s with mreg := m, v3 := s.v3 ^^^ m, blen := s.blen + 8, lastblk := false, rc := 0, fsm := .comp }

/-- 42_message_commands R143, the accept edge in READY: what FINAL writes; everything else is kept. `L` is the length byte
and `b` the final word, both written out as R143 and R144 do. -/
def Obligations.FinalStartsCompression : Prop :=
  ∀ (s : State) (nb : Nat) (t : Word) (L : BitVec 8) (b : Word), s.fsm = .ready →
    L.toNat = (s.blen.toNat + nb) % 256 →
    b = (t &&& maskBytes nb) ||| (L.zeroExtend 64 <<< 56) →
    exec (.final nb t) s = .next { s with mreg := b, v3 := s.v3 ^^^ b, blen := L, lastblk := true, rc := 0, fsm := .comp }

/-- 60_exceptions R201 for ERR_SEQ: BLOCK and FINAL in UNKEYED or DONE change the error record only, and that only if no
error is recorded (R203). -/
def Obligations.OutOfSequenceOnlyRecordsTheError : Prop :=
  ∀ (s : State) (m : Word) (nb : Nat) (t : Word), s.fsm = .unkeyed ∨ s.fsm = .done →
    exec (.block m) s = .next { s with err := true, errcode := if s.err then s.errcode else .seq } ∧
    exec (.final nb t) s = .next { s with err := true, errcode := if s.err then s.errcode else .seq }

/-- 30_encoding R75: which CTRL values are illegal, and that an accepted illegal command is consumed and changes the error
record only, and that only if no error is recorded. -/
def Obligations.IllegalCommandOnlyRecordsTheError : Prop :=
  (∀ ctrl : BitVec 8, legal ctrl = false ↔
    ctrlOp ctrl = 0b101 ∨ ctrlOp ctrl = 0b110 ∨ ctrlOp ctrl = 0b111 ∨ ctrlRsv ctrl ≠ 0 ∨
      (ctrlNb ctrl ≠ 0 ∧ ctrlOp ctrl ≠ 0b011)) ∧
  (∀ (s : State) (p : PortIn), p.rst = false → p.cmdValid = true → s.cmdReady false = true → legal p.cmd.ctrl = false →
    edge p s = .next { s with err := true, errcode := if s.err then s.errcode else .illegal } ∧
    ∀ t, edge p s = .next t → t.cmdReady false = true)

/-- 60_exceptions R203, R204: the error record after any edge. Reset and CLEAR clear it, the first error is kept, nothing
else touches it. -/
def Obligations.ErrorRecordAfterEveryEdge : Prop :=
  ∀ (s : State) (p : PortIn) (t : State), edge p s = .next t →
    (t.err, t.errcode) =
      if p.rst then (false, .none)
      else if s.acceptsAt p then s.errorRecordAfter p.cmd.ctrl
      else (s.err, s.errcode)

/-! ## Reset -/

/-- 70_reset_and_hazards R220: a reset edge gives the state of 10_state R43 whatever the state and the command port, in COMP
and FIN too, and no command is accepted. -/
def Obligations.ResetEdgeWins : Prop :=
  ∀ (s : State) (p : PortIn), p.rst = true →
    edge p s = .next { v0 := 0, v1 := 0, v2 := 0, v3 := 0, mreg := 0, lastblk := false, blen := 0, fsm := .unkeyed, rc := 0,
                       tagreg := 0, err := false, errcode := .none, config := s.config, supplier := s.supplier } ∧
    s.cmdReady p.rst = false ∧ s.acceptsAt p = false

/-- 10_state R43: every register and every output after a reset edge or a CLEAR, and in the model's reset state. -/
def Obligations.ResetAndClearValues : Prop :=
  ∀ (s : State) (p : PortIn) (t : State),
    (p.rst = true ∧ edge p s = .next t) ∨ exec .clear s = .next t ∨ t = State.reset →
    t.v0 = 0 ∧ t.v1 = 0 ∧ t.v2 = 0 ∧ t.v3 = 0 ∧ t.mreg = 0 ∧ t.lastblk = false ∧ t.blen = 0 ∧ t.fsm = .unkeyed ∧ t.rc = 0 ∧
    t.tagreg = 0 ∧ t.err = false ∧ t.errcode = .none ∧
    t.cmdReady false = true ∧ t.tagValid = false ∧ t.tag = 0 ∧ t.status = 0x0000

/-! ## Outputs -/

/-- 10_state R39: every field of STATUS, and BUSY is the negation of `cmd_ready` while `rst = 0`. -/
def Obligations.StatusFields : Prop :=
  ∀ s : State,
    s.status.extractLsb' 0 3 = s.fsm.code ∧
    s.status.getLsbD 3 = decide (s.fsm = .comp ∨ s.fsm = .fin) ∧
    s.status.getLsbD 4 = s.tagValid ∧
    s.status.getLsbD 5 = s.err ∧
    s.status.extractLsb' 6 2 = s.errcode.code ∧
    s.status.extractLsb' 8 8 = s.blen ∧
    s.status.getLsbD 3 = (!s.cmdReady false) ∧
    (Fsm.unkeyed.code = 0 ∧ Fsm.ready.code = 1 ∧ Fsm.comp.code = 2 ∧ Fsm.fin.code = 3 ∧ Fsm.done.code = 4) ∧
    (ErrCode.none.code = 0 ∧ ErrCode.illegal.code = 1 ∧ ErrCode.seq.code = 2)

/-- 10_state R37, R38: `cmd_ready`, `tag_valid` and `tag`; `tag` is 0 while not valid in every state that meets the
invariant. -/
def Obligations.ReadyAndTagOutputs : Prop :=
  ∀ (s : State) (rst : Bool),
    (s.cmdReady rst = true ↔ rst = false ∧ (s.fsm = .unkeyed ∨ s.fsm = .ready ∨ s.fsm = .done)) ∧
    (s.tagValid = true ↔ s.fsm = .done) ∧ s.tag = s.tagreg ∧
    (s.Inv = true → s.tagValid = false → s.tag = 0)

/-- 43_sequencer R177, which the spec derives from 10_state R30, R37-R39: what the ports show while a command is in
progress. -/
def Obligations.PortsWhileBusy : Prop :=
  ∀ (s : State) (rst : Bool), s.Inv = true →
    (s.fsm = .comp → s.status = s.blen ++ s.errcode.code ++ BitVec.ofBool s.err ++ 0b01010#5) ∧
    (s.fsm = .fin → s.status = s.blen ++ s.errcode.code ++ BitVec.ofBool s.err ++ 0b01011#5) ∧
    (s.fsm = .comp ∨ s.fsm = .fin → s.cmdReady rst = false ∧ s.tagValid = false ∧ s.tag = 0)

/-! ## The datapath -/

/-- 40_sipround R102: bit `i` of a rotation is bit `(i - b) mod 64` of the word. -/
def Obligations.RotationBits : Prop :=
  ∀ (x : Word) (b i : Nat), 1 ≤ b → b ≤ 63 → i < 64 → (rotl x b).getLsbD i = x.getLsbD ((i + 64 - b) % 64)

/-- 40_sipround R104, R106, which the spec derives from R103 and R105: the single-assignment and the permuted round are
SipRound. -/
def Obligations.RoundFormsAgree : Prop := ∀ v : Quad, sipRoundSsa v = sipRound v ∧ sipRoundPermuted v = sipRound v

/-- 40_sipround R107, R108: every datapath's chain of `k` rounds, half-round stages too, is `SipRound^k`. -/
def Obligations.EveryDatapathChainsSipRounds : Prop :=
  ∀ (d : Datapath) (k : Nat) (v : Quad), datapathRounds d k v = sipRounds k v

/-- 40_sipround R110, which the spec derives from R104: no number of rounds leaves the zero state. -/
def Obligations.ZeroStateIsFixed : Prop := ∀ n : Nat, sipRounds n ⟨0, 0, 0, 0⟩ = ⟨0, 0, 0, 0⟩

/-- 40_sipround R111, which the spec derives from R104: SipRound is a bijection and `sipRoundInv` is its inverse. -/
def Obligations.SipRoundIsABijection : Prop :=
  Function.Bijective sipRound ∧ (∀ v, sipRoundInv (sipRound v) = v) ∧ (∀ v, sipRound (sipRoundInv v) = v)

/-- 20_memory R52, R53: byte `i` of the sequence is byte `i` of the packed word, and the bytes beyond the sequence are 0. -/
def Obligations.PackingIsLittleEndian : Prop :=
  ∀ (bytes : List Byte) (i : Nat), bytes.length ≤ 8 → i < 8 → byteOf (leWord bytes) i = bytes.getD i 0

/-- 42_message_commands R144: the bytes of the final word. -/
def Obligations.FinalWordBytes : Prop :=
  ∀ (L : BitVec 8) (nb : Nat) (t : Word), nb ≤ 7 →
    (∀ i, i < nb → byteOf (finalWord L nb t) i = byteOf t i) ∧
    (∀ i, nb ≤ i → i < 7 → byteOf (finalWord L nb t) i = 0) ∧
    byteOf (finalWord L nb t) 7 = L

/-! ## The sequencer -/

/-- 43_sequencer R172: the compression edge, its rounds as `SipRound^k` for every way the datapath is built. -/
def Obligations.CompressionEdgeEffect : Prop :=
  ∀ (s : State) (p : PortIn) (k : Nat) (w : Quad), p.rst = false → s.fsm = .comp → s.rc.toNat < 2 →
    k = min (roundsEachEdge s) (2 - s.rc.toNat) → w = sipRounds k ⟨s.v0, s.v1, s.v2, s.v3⟩ →
    (s.rc.toNat + k = 2 → s.lastblk = true →
      edge p s = .next { s with v0 := w.v0 ^^^ s.mreg, v1 := w.v1, v2 := w.v2 ^^^ 0xff, v3 := w.v3, rc := 0, fsm := .fin }) ∧
    (s.rc.toNat + k = 2 → s.lastblk = false →
      edge p s = .next { s with v0 := w.v0 ^^^ s.mreg, v1 := w.v1, v2 := w.v2, v3 := w.v3, rc := 0, fsm := .ready }) ∧
    (s.rc.toNat + k ≠ 2 →
      ∃ t, edge p s = .next t ∧ t.rc.toNat = s.rc.toNat + k ∧
        t = { s with v0 := w.v0, v1 := w.v1, v2 := w.v2, v3 := w.v3, rc := t.rc })

/-- 43_sequencer R173: the finalization edge, its rounds as `SipRound^k` for every way the datapath is built. -/
def Obligations.FinalizationEdgeEffect : Prop :=
  ∀ (s : State) (p : PortIn) (k : Nat) (w : Quad), p.rst = false → s.fsm = .fin → s.rc.toNat < 4 →
    k = min (roundsEachEdge s) (4 - s.rc.toNat) → w = sipRounds k ⟨s.v0, s.v1, s.v2, s.v3⟩ →
    (s.rc.toNat + k = 4 →
      edge p s = .next { s with v0 := w.v0, v1 := w.v1, v2 := w.v2, v3 := w.v3, rc := 0, fsm := .done,
                                tagreg := w.v0 ^^^ w.v1 ^^^ w.v2 ^^^ w.v3 }) ∧
    (s.rc.toNat + k ≠ 4 →
      ∃ t, edge p s = .next t ∧ t.rc.toNat = s.rc.toNat + k ∧
        t = { s with v0 := w.v0, v1 := w.v1, v2 := w.v2, v3 := w.v3, rc := t.rc })

/-- 93 I6 (log 7): the round counts the spec calls unreachable are refused by name, and nothing else is. -/
def Obligations.OnlyUnreachableRoundCountsAreRefused : Prop :=
  ∀ (s : State) (p : PortIn),
    (∃ r, edge p s = .refused r) ↔
      p.rst = false ∧ ((s.fsm = .comp ∧ 2 ≤ s.rc.toNat) ∨ (s.fsm = .fin ∧ 4 ≤ s.rc.toNat))

/-- 43_sequencer R174: with no reset and no accepted command an idle block holds every register, at one edge and at any number
of edges. -/
def Obligations.IdleEdgeHolds : Prop :=
  ∀ (s : State) (p : PortIn), p.rst = false → s.acceptsAt p = false →
    s.fsm = .unkeyed ∨ s.fsm = .ready ∨ s.fsm = .done →
    edge p s = .next s ∧ ∀ n, edges (List.replicate n p) s = .next s

/-- 43_sequencer R176, which the spec derives from R170-R173: the edge counts. -/
def Obligations.EdgeCounts : Prop :=
  ∀ (s : State) (len : Nat),
    (s.config.roundsPerCycle = .one → blockEdges s = 3 ∧ finalEdges s = 7 ∧ hashEdges s len = 1 + len / 8 * 3 + 7) ∧
    (s.config.roundsPerCycle = .two → blockEdges s = 2 ∧ finalEdges s = 4 ∧ hashEdges s len = 1 + len / 8 * 2 + 4) ∧
    (s.config.roundsPerCycle = .four → blockEdges s = 2 ∧ finalEdges s = 3 ∧ hashEdges s len = 1 + len / 8 * 2 + 3)

/-- 43_sequencer R178 for BLOCK, which the spec derives from R172: after it is accepted, under any port values with `rst =
0`, the block stays in COMP until the edge count of R176 and then holds exactly the completed effect of 42_message_commands
R140. -/
def Obligations.BlockCompletes : Prop :=
  ∀ (s : State) (m : Word) (ps : List PortIn), s.fsm = .ready → (∀ p ∈ ps, p.rst = false) →
    ∃ a, exec (.block m) s = .next a ∧
      (ps.length + 1 < blockEdges s → ∃ t, edges ps a = .next t ∧ t.fsm = .comp) ∧
      (ps.length + 1 = blockEdges s →
        edges ps a = .next { s.withVs (compress s.vs m) with
          mreg := m, lastblk := false, blen := s.blen + 8, rc := 0, fsm := .ready })

/-- 43_sequencer R178 for FINAL, which the spec derives from R172, R173: after it is accepted, under any port values with
`rst = 0`, the block stays busy until the edge count of R176 and then holds exactly the completed effect of
42_message_commands R143. -/
def Obligations.FinalCompletes : Prop :=
  ∀ (s : State) (nb : Nat) (t : Word) (ps : List PortIn) (L : BitVec 8) (b : Word) (v : Quad), s.fsm = .ready →
    (∀ p ∈ ps, p.rst = false) → L = s.blen + BitVec.ofNat 8 nb → b = finalWord L nb t → v = finalize (compress s.vs b) →
    ∃ a, exec (.final nb t) s = .next a ∧
      (ps.length + 1 < finalEdges s → ∃ u, edges ps a = .next u ∧ u.busy = true) ∧
      (ps.length + 1 = finalEdges s →
        edges ps a = .next { s.withVs v with
          mreg := b, lastblk := true, blen := L, rc := 0, tagreg := fold v, fsm := .done })

/-- 43_sequencer R179: no edge depends on which admissible datapath the block was built with. -/
def Obligations.DatapathDoesNotShow : Prop :=
  ∀ (s : State) (p : PortIn) (d : Datapath) (t : State), edge p s = .next t →
    edge p { s with config := { s.config with datapath := d } } = .next { t with config := { t.config with datapath := d } }

/-- 43_sequencer R170: the parameters fixed at synthesis never change, and no edge touches the supplier's script. -/
def Obligations.ParametersNeverChange : Prop :=
  (∀ s t : State, step s = .next t → t.config = s.config) ∧
  (∀ (p : PortIn) (s t : State), edge p s = .next t → t.config = s.config ∧ t.supplier = s.supplier)

/-! ## Whole-machine rules -/

/-- 10_state R25, R26, R28, R30 and log 7: the reset state meets the invariant. -/
def Obligations.ResetMeetsTheInvariant : Prop := State.reset.Inv = true

/-- 10_state R25, R26, R28, R30; 93 I5, I6: every step from a state that meets the invariant gives one that meets it. -/
def Obligations.EveryStepKeepsTheInvariant : Prop :=
  ∀ s t : State, s.Inv = true → step s = .next t → t.Inv = true

/-- 60_exceptions R205, R207: from a state that meets the invariant the machine always goes on, whatever is on the ports. -/
def Obligations.TheMachineNeverStops : Prop :=
  ∀ s : State, s.Inv = true → (∃ t, step s = .next t) ∧ (∀ p, ∃ t, edge p s = .next t)

/-- 10_state R21: the working state is written only by reset, INIT, CLEAR and the processing of BLOCK and FINAL. -/
def Obligations.OnlyTheseEdgesWriteTheWorkingState : Prop :=
  ∀ (s : State) (p : PortIn) (t : State), edge p s = .next t → t.vs ≠ s.vs →
    p.rst = true ∨
    (s.acceptsAt p = true ∧ (p.cmd.ctrl = 0x01 ∨ p.cmd.ctrl = 0x04)) ∨
    (s.acceptsAt p = true ∧ s.fsm = .ready ∧ (p.cmd.ctrl = 0x02 ∨ p.cmd.ctrl ∈ finalControls)) ∨
    s.fsm = .comp ∨ s.fsm = .fin

/-- 10_state R30 ("DONE is entered only by rule R173 and left only by INIT, CLEAR or reset") and 92 D33: the tag stays while
in DONE. -/
def Obligations.DoneIsEnteredAndLeftOnlySo : Prop :=
  ∀ (s : State) (p : PortIn) (t : State), edge p s = .next t →
    (s.fsm = .done → t.fsm = .done → t.tagreg = s.tagreg) ∧
    (s.fsm = .done → t.fsm ≠ .done →
      p.rst = true ∨ (s.acceptsAt p = true ∧ (p.cmd.ctrl = 0x01 ∨ p.cmd.ctrl = 0x04))) ∧
    (s.fsm ≠ .done → t.fsm = .done → p.rst = false ∧ s.fsm = .fin)

/-- 60_exceptions R208, 10_state R21: two runs that differ only in the secret registers and in the data words on the port
differ, after any edge, only in those, but for the tag when the edge completes a hash; and no output reads a secret
register. -/
def Obligations.SecretsLeaveOnlyThroughTheTag : Prop :=
  (∀ (s₁ s₂ t₁ t₂ : State) (p₁ p₂ : PortIn), s₁.withoutSecrets = s₂.withoutSecrets →
    p₁.rst = p₂.rst → p₁.cmdValid = p₂.cmdValid → p₁.cmd.ctrl = p₂.cmd.ctrl →
    edge p₁ s₁ = .next t₁ → edge p₂ s₂ = .next t₂ →
    { t₁.withoutSecrets with tagreg := t₂.tagreg } = t₂.withoutSecrets ∧
    (¬ (s₁.fsm = .fin ∧ t₁.fsm = .done) → t₁.withoutSecrets = t₂.withoutSecrets)) ∧
  (∀ (s : State) (rst : Bool), s.withoutSecrets.cmdReady rst = s.cmdReady rst ∧ s.withoutSecrets.tagValid = s.tagValid ∧
    s.withoutSecrets.tag = s.tag ∧ s.withoutSecrets.status = s.status)

/-- 10_state R31, which the spec derives from R29 and 41_control_commands R124: after an INIT, everything but the error
record is a function of the key and of what the ports carry from then on, whatever the state before. -/
def Obligations.NothingSurvivesAnInit : Prop :=
  ∀ (s₁ s₂ a₁ a₂ t₁ t₂ : State) (k0 k1 : Word) (ps : List PortIn), s₁.config = s₂.config → s₁.supplier = s₂.supplier →
    exec (.init k0 k1) s₁ = .next a₁ → exec (.init k0 k1) s₂ = .next a₂ →
    edges ps a₁ = .next t₁ → edges ps a₂ = .next t₂ →
    { t₁ with err := t₂.err, errcode := t₂.errcode } = t₂

/-- 43_sequencer R171-R173: from a state that meets the invariant and is busy, at most six edges without reset bring
`cmd_ready` back. -/
def Obligations.BusyPeriodIsBounded : Prop :=
  ∀ (s : State) (ps : List PortIn), s.Inv = true → s.busy = true → (∀ p ∈ ps, p.rst = false) → ps.length = 6 →
    ∃ n t, n ≤ 6 ∧ edges (ps.take n) s = .next t ∧ t.cmdReady false = true

/-! ## The supplier and the whole hash -/

/-- The model's reading of 30_encoding R79 (log 9, DEDUCED; log 2): a WAIT whose `cmd_ready`, or a WAITTAG whose `tag_valid`, is
already 1 takes no edge, which is log 9's choice and not R79's words. Until then R79's "leave `cmd_valid` at 0" holds: the step
is an edge with `rst = 0` and `cmd_valid = 0`, and the script stays where it is. -/
def Obligations.SatisfiedWaitTakesNoEdgeUnmetWaitIdles : Prop :=
  ∀ (s : State) (rest : List Stimulus),
    (s.supplier = .wait :: rest → s.cmdReady false = true → step s = step (s.withSupplier rest)) ∧
    (s.supplier = .waitTag :: rest → s.tagValid = true → step s = step (s.withSupplier rest)) ∧
    ((s.supplier = .wait :: rest ∧ s.cmdReady false = false) ∨ (s.supplier = .waitTag :: rest ∧ s.tagValid = false) →
      ∀ c, step s = edge { rst := false, cmdValid := false, cmd := c } s)

/-- 30_encoding R77, 70_reset_and_hazards R224: a presented command is held over at most six edges and then accepted, once.
-/
def Obligations.PresentedCommandIsAccepted : Prop :=
  ∀ (s : State) (c : Command) (rest : List Stimulus), s.Inv = true → s.supplier = .present c :: rest →
    ∃ n t, n ≤ 6 ∧ Host.Core.run Sys2Proof.core n s = .next t ∧ t.cmdReady false = true ∧
      t.supplier = .present c :: rest ∧ step t = accept c (t.withSupplier rest)

/-- Logs 2 and 4, the model's own: a raw edge of the script puts exactly its port values on the ports for one edge, and a
supplier with nothing left to do presents no command, whatever value the command port carries. -/
def Obligations.ScriptDrivesThePorts : Prop :=
  ∀ s : State,
    (∀ p rest, s.supplier = .edge p :: rest → step s = edge p (s.withSupplier rest)) ∧
    (∀ c, s.supplier = [] → step s = edge { rst := false, cmdValid := false, cmd := c } s)

/-- 30_encoding R78: the byte-list forms are the commands of their packed words. -/
def Obligations.ByteListForms : Prop :=
  ∀ bytes : List Byte,
    (bytes.length = 8 → (Line.blockb bytes).script = (Line.block (leWord bytes)).script) ∧
    (bytes.length ≤ 7 → (Line.finalb bytes).script = (Line.final bytes.length (leWord bytes)).script) ∧
    (Line.finalb []).script = (Line.final 0 0).script

/-- 42_message_commands R152, which the spec derives from R143 and R144: the empty message is INIT then FINAL 0, 0; its
final word is 0 and it is no error. -/
def Obligations.EmptyMessage : Prop :=
  ∀ k0 k1 : Word, hashCommands k0 k1 [] = [.init k0 k1, .final 0 0] ∧
    sipHash24 k0 k1 [] = fold (finalize (compress (initQuad k0 k1) 0)) ∧
    ∀ s a : State, exec (.init k0 k1) s = .next a →
      ∃ b, exec (.final 0 0) a = .next b ∧ b.mreg = 0 ∧ b.fsm = .comp ∧ b.err = s.err ∧ b.errcode = s.errcode

/-- 42_message_commands R151, which the spec derives from the rules of the commands and 43_sequencer R178: from any state
with `cmd_ready = 1`, whatever the parameters, executing HASH ends, after the edges of 43_sequencer R176, in DONE with the
tag of the reference function, the length modulo 256 and the error record as before. -/
def Obligations.HashComputesSipHash : Prop :=
  ∀ (s : State) (k0 k1 : Word) (msg : List Byte) (rest : List Stimulus), s.cmdReady false = true →
    s.supplier = hashScript k0 k1 msg ++ rest →
    ∃ t, Host.Core.run Sys2Proof.core (hashEdges s msg.length) s = .next t ∧
      t.fsm = .done ∧ t.tagValid = true ∧ t.tag = sipHash24 k0 k1 msg ∧ t.blen.toNat = msg.length % 256 ∧
      t.err = s.err ∧ t.errcode = s.errcode ∧ t.supplier = .waitTag :: rest

/-- 70_reset_and_hazards R227, 42_message_commands R145, both derived there from the rules of the commands: any INIT, BLOCKs
and FINAL are hashed as the message they spell, with the length byte of all its bytes modulo 256 and without an error. -/
def Obligations.AnySplitIsHashedAsTheMessageItSpells : Prop :=
  ∀ (s : State) (k0 k1 : Word) (ms : List Word) (nb : Nat) (w : Word) (rest : List Stimulus), s.cmdReady false = true →
    nb ≤ 7 → s.supplier = scriptOf (.init k0 k1 :: ms.map .block ++ [.final nb w]) ++ .waitTag :: rest →
    ∃ t, Host.Core.run Sys2Proof.core (1 + ms.length * blockEdges s + finalEdges s) s = .next t ∧
      t.fsm = .done ∧ t.tag = sipHash24 k0 k1 (spelledMessage ms nb w) ∧
      t.blen.toNat = (8 * ms.length + nb) % 256 ∧ byteOf t.mreg 7 = t.blen ∧
      t.err = s.err ∧ t.errcode = s.errcode ∧ t.supplier = .waitTag :: rest
end

