-- ==== Sys2Proof/Laws/State.lean ====
section
/-! SUPPORT. What each update of the state leaves in each field: one lemma per field and update, all true by definition. -/

namespace Sys2Proof.Machine

/-! ## `withVs`: the working state -/

section
variable (s : State) (q : Quad)
@[simp] theorem State.withVs_v0 : (s.withVs q).v0 = q.v0 := rfl
@[simp] theorem State.withVs_v1 : (s.withVs q).v1 = q.v1 := rfl
@[simp] theorem State.withVs_v2 : (s.withVs q).v2 = q.v2 := rfl
@[simp] theorem State.withVs_v3 : (s.withVs q).v3 = q.v3 := rfl
@[simp] theorem State.withVs_mreg : (s.withVs q).mreg = s.mreg := rfl
@[simp] theorem State.withVs_lastblk : (s.withVs q).lastblk = s.lastblk := rfl
@[simp] theorem State.withVs_blen : (s.withVs q).blen = s.blen := rfl
@[simp] theorem State.withVs_fsm : (s.withVs q).fsm = s.fsm := rfl
@[simp] theorem State.withVs_rc : (s.withVs q).rc = s.rc := rfl
@[simp] theorem State.withVs_tagreg : (s.withVs q).tagreg = s.tagreg := rfl
@[simp] theorem State.withVs_err : (s.withVs q).err = s.err := rfl
@[simp] theorem State.withVs_errcode : (s.withVs q).errcode = s.errcode := rfl
@[simp] theorem State.withVs_config : (s.withVs q).config = s.config := rfl
@[simp] theorem State.withVs_supplier : (s.withVs q).supplier = s.supplier := rfl
end

/-! ## `withSupplier`: the supplier's script -/

section
variable (s : State) (l : List Stimulus)
@[simp] theorem State.withSupplier_v0 : (s.withSupplier l).v0 = s.v0 := rfl
@[simp] theorem State.withSupplier_v1 : (s.withSupplier l).v1 = s.v1 := rfl
@[simp] theorem State.withSupplier_v2 : (s.withSupplier l).v2 = s.v2 := rfl
@[simp] theorem State.withSupplier_v3 : (s.withSupplier l).v3 = s.v3 := rfl
@[simp] theorem State.withSupplier_mreg : (s.withSupplier l).mreg = s.mreg := rfl
@[simp] theorem State.withSupplier_lastblk : (s.withSupplier l).lastblk = s.lastblk := rfl
@[simp] theorem State.withSupplier_blen : (s.withSupplier l).blen = s.blen := rfl
@[simp] theorem State.withSupplier_fsm : (s.withSupplier l).fsm = s.fsm := rfl
@[simp] theorem State.withSupplier_rc : (s.withSupplier l).rc = s.rc := rfl
@[simp] theorem State.withSupplier_tagreg : (s.withSupplier l).tagreg = s.tagreg := rfl
@[simp] theorem State.withSupplier_err : (s.withSupplier l).err = s.err := rfl
@[simp] theorem State.withSupplier_errcode : (s.withSupplier l).errcode = s.errcode := rfl
@[simp] theorem State.withSupplier_config : (s.withSupplier l).config = s.config := rfl
@[simp] theorem State.withSupplier_supplier : (s.withSupplier l).supplier = l := rfl
end

/-! ## `zeroized`: CLEAR and reset -/

section
variable (s : State)
@[simp] theorem State.zeroized_v0 : s.zeroized.v0 = 0 := rfl
@[simp] theorem State.zeroized_v1 : s.zeroized.v1 = 0 := rfl
@[simp] theorem State.zeroized_v2 : s.zeroized.v2 = 0 := rfl
@[simp] theorem State.zeroized_v3 : s.zeroized.v3 = 0 := rfl
@[simp] theorem State.zeroized_mreg : s.zeroized.mreg = 0 := rfl
@[simp] theorem State.zeroized_lastblk : s.zeroized.lastblk = false := rfl
@[simp] theorem State.zeroized_blen : s.zeroized.blen = 0 := rfl
@[simp] theorem State.zeroized_fsm : s.zeroized.fsm = .unkeyed := rfl
@[simp] theorem State.zeroized_rc : s.zeroized.rc = 0 := rfl
@[simp] theorem State.zeroized_tagreg : s.zeroized.tagreg = 0 := rfl
@[simp] theorem State.zeroized_err : s.zeroized.err = false := rfl
@[simp] theorem State.zeroized_errcode : s.zeroized.errcode = .none := rfl
@[simp] theorem State.zeroized_config : s.zeroized.config = s.config := rfl
@[simp] theorem State.zeroized_supplier : s.zeroized.supplier = s.supplier := rfl
end

/-! ## `keyed`: INIT -/

section
variable (s : State) (k0 k1 : Word)
@[simp] theorem State.keyed_v0 : (s.keyed k0 k1).v0 = (initQuad k0 k1).v0 := rfl
@[simp] theorem State.keyed_v1 : (s.keyed k0 k1).v1 = (initQuad k0 k1).v1 := rfl
@[simp] theorem State.keyed_v2 : (s.keyed k0 k1).v2 = (initQuad k0 k1).v2 := rfl
@[simp] theorem State.keyed_v3 : (s.keyed k0 k1).v3 = (initQuad k0 k1).v3 := rfl
@[simp] theorem State.keyed_mreg : (s.keyed k0 k1).mreg = 0 := rfl
@[simp] theorem State.keyed_lastblk : (s.keyed k0 k1).lastblk = false := rfl
@[simp] theorem State.keyed_blen : (s.keyed k0 k1).blen = 0 := rfl
@[simp] theorem State.keyed_fsm : (s.keyed k0 k1).fsm = .ready := rfl
@[simp] theorem State.keyed_rc : (s.keyed k0 k1).rc = 0 := rfl
@[simp] theorem State.keyed_tagreg : (s.keyed k0 k1).tagreg = 0 := rfl
@[simp] theorem State.keyed_err : (s.keyed k0 k1).err = s.err := rfl
@[simp] theorem State.keyed_errcode : (s.keyed k0 k1).errcode = s.errcode := rfl
@[simp] theorem State.keyed_config : (s.keyed k0 k1).config = s.config := rfl
@[simp] theorem State.keyed_supplier : (s.keyed k0 k1).supplier = s.supplier := rfl
end

/-! ## `takeWord`: the accept edge of BLOCK and FINAL -/

section
variable (s : State) (w : Word) (len : BitVec 8) (last : Bool)
@[simp] theorem State.takeWord_v0 : (s.takeWord w len last).v0 = s.v0 := rfl
@[simp] theorem State.takeWord_v1 : (s.takeWord w len last).v1 = s.v1 := rfl
@[simp] theorem State.takeWord_v2 : (s.takeWord w len last).v2 = s.v2 := rfl
@[simp] theorem State.takeWord_v3 : (s.takeWord w len last).v3 = s.v3 ^^^ w := rfl
@[simp] theorem State.takeWord_mreg : (s.takeWord w len last).mreg = w := rfl
@[simp] theorem State.takeWord_lastblk : (s.takeWord w len last).lastblk = last := rfl
@[simp] theorem State.takeWord_blen : (s.takeWord w len last).blen = len := rfl
@[simp] theorem State.takeWord_fsm : (s.takeWord w len last).fsm = .comp := rfl
@[simp] theorem State.takeWord_rc : (s.takeWord w len last).rc = 0 := rfl
@[simp] theorem State.takeWord_tagreg : (s.takeWord w len last).tagreg = s.tagreg := rfl
@[simp] theorem State.takeWord_err : (s.takeWord w len last).err = s.err := rfl
@[simp] theorem State.takeWord_errcode : (s.takeWord w len last).errcode = s.errcode := rfl
@[simp] theorem State.takeWord_config : (s.takeWord w len last).config = s.config := rfl
@[simp] theorem State.takeWord_supplier : (s.takeWord w len last).supplier = s.supplier := rfl
end

/-! ## `midPhase`: a round edge inside a phase -/

section
variable (s : State) (k : Nat)
@[simp] theorem State.midPhase_v0 : (s.midPhase k).v0 = (s.afterRounds k).v0 := rfl
@[simp] theorem State.midPhase_v1 : (s.midPhase k).v1 = (s.afterRounds k).v1 := rfl
@[simp] theorem State.midPhase_v2 : (s.midPhase k).v2 = (s.afterRounds k).v2 := rfl
@[simp] theorem State.midPhase_v3 : (s.midPhase k).v3 = (s.afterRounds k).v3 := rfl
@[simp] theorem State.midPhase_mreg : (s.midPhase k).mreg = s.mreg := rfl
@[simp] theorem State.midPhase_lastblk : (s.midPhase k).lastblk = s.lastblk := rfl
@[simp] theorem State.midPhase_blen : (s.midPhase k).blen = s.blen := rfl
@[simp] theorem State.midPhase_fsm : (s.midPhase k).fsm = s.fsm := rfl
@[simp] theorem State.midPhase_rc : (s.midPhase k).rc = s.rc + BitVec.ofNat 3 k := rfl
@[simp] theorem State.midPhase_tagreg : (s.midPhase k).tagreg = s.tagreg := rfl
@[simp] theorem State.midPhase_err : (s.midPhase k).err = s.err := rfl
@[simp] theorem State.midPhase_errcode : (s.midPhase k).errcode = s.errcode := rfl
@[simp] theorem State.midPhase_config : (s.midPhase k).config = s.config := rfl
@[simp] theorem State.midPhase_supplier : (s.midPhase k).supplier = s.supplier := rfl
end

/-! ## `finalized`: the last finalization edge -/

section
variable (s : State) (k : Nat)
@[simp] theorem State.finalized_v0 : (s.finalized k).v0 = (s.afterRounds k).v0 := rfl
@[simp] theorem State.finalized_v1 : (s.finalized k).v1 = (s.afterRounds k).v1 := rfl
@[simp] theorem State.finalized_v2 : (s.finalized k).v2 = (s.afterRounds k).v2 := rfl
@[simp] theorem State.finalized_v3 : (s.finalized k).v3 = (s.afterRounds k).v3 := rfl
@[simp] theorem State.finalized_mreg : (s.finalized k).mreg = s.mreg := rfl
@[simp] theorem State.finalized_lastblk : (s.finalized k).lastblk = s.lastblk := rfl
@[simp] theorem State.finalized_blen : (s.finalized k).blen = s.blen := rfl
@[simp] theorem State.finalized_fsm : (s.finalized k).fsm = .done := rfl
@[simp] theorem State.finalized_rc : (s.finalized k).rc = 0 := rfl
@[simp] theorem State.finalized_tagreg : (s.finalized k).tagreg = fold (s.afterRounds k) := rfl
@[simp] theorem State.finalized_err : (s.finalized k).err = s.err := rfl
@[simp] theorem State.finalized_errcode : (s.finalized k).errcode = s.errcode := rfl
@[simp] theorem State.finalized_config : (s.finalized k).config = s.config := rfl
@[simp] theorem State.finalized_supplier : (s.finalized k).supplier = s.supplier := rfl
end

/-! ## `raiseErr` and `compressed`, which branch -/

section
variable (s : State) (code : ErrCode) (k : Nat)
@[simp] theorem State.raiseErr_v0 : (s.raiseErr code).v0 = s.v0 := by unfold State.raiseErr; split <;> rfl
@[simp] theorem State.raiseErr_v1 : (s.raiseErr code).v1 = s.v1 := by unfold State.raiseErr; split <;> rfl
@[simp] theorem State.raiseErr_v2 : (s.raiseErr code).v2 = s.v2 := by unfold State.raiseErr; split <;> rfl
@[simp] theorem State.raiseErr_v3 : (s.raiseErr code).v3 = s.v3 := by unfold State.raiseErr; split <;> rfl
@[simp] theorem State.raiseErr_mreg : (s.raiseErr code).mreg = s.mreg := by unfold State.raiseErr; split <;> rfl
@[simp] theorem State.raiseErr_lastblk : (s.raiseErr code).lastblk = s.lastblk := by unfold State.raiseErr; split <;> rfl
@[simp] theorem State.raiseErr_blen : (s.raiseErr code).blen = s.blen := by unfold State.raiseErr; split <;> rfl
@[simp] theorem State.raiseErr_fsm : (s.raiseErr code).fsm = s.fsm := by unfold State.raiseErr; split <;> rfl
@[simp] theorem State.raiseErr_rc : (s.raiseErr code).rc = s.rc := by unfold State.raiseErr; split <;> rfl
@[simp] theorem State.raiseErr_tagreg : (s.raiseErr code).tagreg = s.tagreg := by unfold State.raiseErr; split <;> rfl
@[simp] theorem State.raiseErr_config : (s.raiseErr code).config = s.config := by unfold State.raiseErr; split <;> rfl
@[simp] theorem State.raiseErr_supplier : (s.raiseErr code).supplier = s.supplier := by unfold State.raiseErr; split <;> rfl
@[simp] theorem State.raiseErr_err : (s.raiseErr code).err = true := by
  unfold State.raiseErr; split <;> simp_all
@[simp] theorem State.raiseErr_errcode : (s.raiseErr code).errcode = if s.err then s.errcode else code := by
  unfold State.raiseErr; split <;> simp_all
@[simp] theorem State.compressed_v0 : (s.compressed k).v0 = (s.afterRounds k).v0 ^^^ s.mreg := by
  unfold State.compressed; split <;> simp_all
@[simp] theorem State.compressed_v1 : (s.compressed k).v1 = (s.afterRounds k).v1 := by
  unfold State.compressed; split <;> simp_all
@[simp] theorem State.compressed_v2 : (s.compressed k).v2 = if s.lastblk then (s.afterRounds k).v2 ^^^ 0xff else (s.afterRounds k).v2 := by
  unfold State.compressed; split <;> simp_all
@[simp] theorem State.compressed_v3 : (s.compressed k).v3 = (s.afterRounds k).v3 := by
  unfold State.compressed; split <;> simp_all
@[simp] theorem State.compressed_mreg : (s.compressed k).mreg = s.mreg := by
  unfold State.compressed; split <;> simp_all
@[simp] theorem State.compressed_lastblk : (s.compressed k).lastblk = s.lastblk := by
  unfold State.compressed; split <;> simp_all
@[simp] theorem State.compressed_blen : (s.compressed k).blen = s.blen := by
  unfold State.compressed; split <;> simp_all
@[simp] theorem State.compressed_fsm : (s.compressed k).fsm = if s.lastblk then .fin else .ready := by
  unfold State.compressed; split <;> simp_all
@[simp] theorem State.compressed_rc : (s.compressed k).rc = 0 := by
  unfold State.compressed; split <;> simp_all
@[simp] theorem State.compressed_tagreg : (s.compressed k).tagreg = s.tagreg := by
  unfold State.compressed; split <;> simp_all
@[simp] theorem State.compressed_err : (s.compressed k).err = s.err := by
  unfold State.compressed; split <;> simp_all
@[simp] theorem State.compressed_errcode : (s.compressed k).errcode = s.errcode := by
  unfold State.compressed; split <;> simp_all
@[simp] theorem State.compressed_config : (s.compressed k).config = s.config := by
  unfold State.compressed; split <;> simp_all
@[simp] theorem State.compressed_supplier : (s.compressed k).supplier = s.supplier := by
  unfold State.compressed; split <;> simp_all
end

/-! ## The working state as a quad -/

@[simp] theorem State.vs_withVs (s : State) (q : Quad) : (s.withVs q).vs = q := rfl
@[simp] theorem State.withVs_vs (s : State) : s.withVs s.vs = s := rfl
@[simp] theorem State.vs_keyed (s : State) (k0 k1 : Word) : (s.keyed k0 k1).vs = initQuad k0 k1 := rfl
@[simp] theorem State.vs_withSupplier (s : State) (l : List Stimulus) : (s.withSupplier l).vs = s.vs := rfl
@[simp] theorem State.vs_zeroized (s : State) : s.zeroized.vs = ⟨0, 0, 0, 0⟩ := rfl
@[simp] theorem State.vs_midPhase (s : State) (k : Nat) : (s.midPhase k).vs = s.afterRounds k := rfl
@[simp] theorem State.vs_finalized (s : State) (k : Nat) : (s.finalized k).vs = s.afterRounds k := rfl
@[simp] theorem State.vs_takeWord (s : State) (w : Word) (len : BitVec 8) (last : Bool) :
    (s.takeWord w len last).vs = { s.vs with v3 := s.v3 ^^^ w } := rfl
@[simp] theorem State.vs_raiseErr (s : State) (code : ErrCode) : (s.raiseErr code).vs = s.vs := by simp [State.vs]

/-! ## Updates over updates -/

@[simp] theorem State.withSupplier_supplier_self (s : State) : s.withSupplier s.supplier = s := rfl
@[simp] theorem State.withSupplier_withSupplier (s : State) (l l' : List Stimulus) :
    (s.withSupplier l).withSupplier l' = s.withSupplier l' := rfl

end Sys2Proof.Machine
end

