-- ==== Sys2Proof/Laws/Edge.lean ====
section
/-! SUPPORT. Everything a meaning, a round edge and an edge can do, said once (43_sequencer R171). -/

namespace Sys2Proof.Machine

/-- Everything an accepted legal command can do to the state. -/
theorem exec_cases {i : Instr} {s t : State} (h : exec i s = .next t) :
    (i = .nop ∧ t = s) ∨
    (∃ k0 k1, i = .init k0 k1 ∧ t = s.keyed k0 k1) ∨
    (i = .clear ∧ t = s.zeroized) ∨
    (∃ m, i = .block m ∧ s.fsm ≠ .ready ∧ t = s.raiseErr .seq) ∨
    (∃ m, i = .block m ∧ s.fsm = .ready ∧ t = s.takeWord m (s.blen + 8) false) ∨
    (∃ nb w, i = .final nb w ∧ s.fsm ≠ .ready ∧ t = s.raiseErr .seq) ∨
    (∃ nb w, i = .final nb w ∧ s.fsm = .ready ∧
      t = s.takeWord (finalWord (s.blen + BitVec.ofNat 8 nb) nb w) (s.blen + BitVec.ofNat 8 nb) true) := by
  cases i <;> simp only [exec, execNop, execInit, execClear, execBlock, execFinal] at h
  all_goals (try split at h)
  all_goals (cases h; simp_all)

/-- No legal command is refused. -/
theorem exec_next (i : Instr) (s : State) : ∃ t, exec i s = .next t := by
  cases i <;> simp only [exec, execNop, execInit, execClear, execBlock, execFinal]
  all_goals (try split)
  all_goals exact ⟨_, rfl⟩

/-- Everything an accepted command can do: its instruction's effect, or ERR_ILLEGAL. -/
theorem accept_cases {c : Command} {s t : State} (h : accept c s = .next t) :
    (∃ i, decode c = .instr i ∧ exec i s = .next t) ∨ (∃ why, decode c = .illegal why ∧ t = s.raiseErr .illegal) := by
  unfold accept at h
  split at h
  · exact .inl ⟨_, ‹_›, h⟩
  · simp only [execIllegal] at h
    cases h
    exact .inr ⟨_, ‹_›, rfl⟩

/-- Accepting a command never stops the machine. -/
theorem accept_next (c : Command) (s : State) : ∃ t, accept c s = .next t := by
  unfold accept
  split
  · exact exec_next _ _
  · exact ⟨_, rfl⟩

/-- Everything a compression edge can do. -/
theorem compressionEdge_cases {s t : State} (h : compressionEdge s = .next t) :
    s.rc.toNat < 2 ∧
    ((s.rc.toNat + roundsNow s 2 = 2 ∧ t = s.compressed (roundsNow s 2)) ∨
     (s.rc.toNat + roundsNow s 2 ≠ 2 ∧ t = s.midPhase (roundsNow s 2))) := by
  simp only [compressionEdge] at h
  split at h
  · cases h
  · split at h <;> cases h <;> exact ⟨by omega, by simp_all⟩

/-- Everything a finalization edge can do. -/
theorem finalizationEdge_cases {s t : State} (h : finalizationEdge s = .next t) :
    s.rc.toNat < 4 ∧
    ((s.rc.toNat + roundsNow s 4 = 4 ∧ t = s.finalized (roundsNow s 4)) ∨
     (s.rc.toNat + roundsNow s 4 ≠ 4 ∧ t = s.midPhase (roundsNow s 4))) := by
  simp only [finalizationEdge] at h
  split at h
  · cases h
  · split at h <;> cases h <;> exact ⟨by omega, by simp_all⟩

theorem edge_of_reset {p : PortIn} {s : State} (h : p.rst = true) : edge p s = .next s.zeroized := by
  simp [edge, h, resetEdge]

theorem edge_of_accept {p : PortIn} {s : State} (h : s.acceptsAt p = true) : edge p s = accept p.cmd s := by
  have : p.rst = false := by simp [State.acceptsAt] at h; exact h.1.1
  simp [edge, h, this]

theorem edge_of_noAccept {p : PortIn} {s : State} (hr : p.rst = false) (h : s.acceptsAt p = false) :
    edge p s = sequencerEdge s := by
  simp [edge, h, hr]

/-- A busy block accepts nothing. -/
theorem acceptsAt_false_of_busy {s : State} (p : PortIn) (h : s.fsm.accepts = false) : s.acceptsAt p = false := by
  simp [State.acceptsAt, State.cmdReady, h]

/-- Everything an edge can do. -/
theorem edge_cases {p : PortIn} {s t : State} (h : edge p s = .next t) :
    (p.rst = true ∧ t = s.zeroized) ∨
    (s.acceptsAt p = true ∧ accept p.cmd s = .next t) ∨
    (p.rst = false ∧ s.acceptsAt p = false ∧ s.fsm = .comp ∧ compressionEdge s = .next t) ∨
    (p.rst = false ∧ s.acceptsAt p = false ∧ s.fsm = .fin ∧ finalizationEdge s = .next t) ∨
    (p.rst = false ∧ s.acceptsAt p = false ∧ s.fsm.accepts = true ∧ t = s) := by
  cases hr : p.rst with
  | true =>
    rw [edge_of_reset hr] at h
    cases h
    exact .inl ⟨rfl, rfl⟩
  | false =>
    cases ha : s.acceptsAt p with
    | true => exact .inr (.inl ⟨rfl, by rwa [edge_of_accept ha] at h⟩)
    | false =>
      rw [edge_of_noAccept hr ha] at h
      cases hf : s.fsm <;> simp only [sequencerEdge, hf, holdEdge] at h
      case comp => simp [h]
      case fin => simp [h]
      all_goals (cases h; simp [Fsm.accepts])

/-- Edges in a row, the first apart. -/
theorem edges_cons {p : PortIn} {ps : List PortIn} {s t : State} (h : edge p s = .next t) :
    edges (p :: ps) s = edges ps t := by
  simp [edges, h]

@[simp] theorem edges_nil (s : State) : edges [] s = .next s := rfl

end Sys2Proof.Machine
end

