-- ==== Sys2Proof/Laws/PerInstr.lean ====
section
/-! SUPPORT. Facts stated per command: the encoding of a well-formed instruction is legal (30_encoding R74). -/

namespace Sys2Proof.Laws.EncodingLegal

/-- The CTRL byte of a well-formed instruction's encoding is one of the legal ones. -/
def Statement (i : Instr) : Prop := i.wellFormed = true → legal (encode i).ctrl = true

theorem nop : Statement .nop := fun _ => by decide

theorem init (k0 k1 : Word) : Statement (.init k0 k1) := fun _ => by
  show legal 0x01 = true
  decide

theorem block (m : Word) : Statement (.block m) := fun _ => by
  show legal 0x02 = true
  decide

theorem final (nb : Nat) (t : Word) : Statement (.final nb t) := fun h => by
  have key : ∀ n, n < 8 → legal (0x03 ||| (BitVec.ofNat 8 n <<< 3)) = true := by decide
  exact key nb (by simp [Instr.wellFormed] at h; omega)

theorem clear : Statement .clear := fun _ => by decide

end Sys2Proof.Laws.EncodingLegal
end

