-- ==== Sys2Proof/Laws/SipRound.lean ====
section
/-! SUPPORT. Chains of rounds (40_sipround R108). -/

namespace Sys2Proof.Machine

@[simp] theorem sipRounds_zero (v : Quad) : sipRounds 0 v = v := rfl

theorem sipRounds_succ (n : Nat) (v : Quad) : sipRounds (n + 1) v = sipRound (sipRounds n v) := rfl

/-- `SipRound^a(SipRound^b(v)) = SipRound^(a+b)(v)`, on which 43_sequencer R178 rests. -/
theorem sipRounds_add (a b : Nat) (v : Quad) : sipRounds a (sipRounds b v) = sipRounds (a + b) v := by
  induction a with
  | zero => simp
  | succ a ih => rw [sipRounds_succ, ih, Nat.succ_add, sipRounds_succ]

/-- Exchanging the roles of `v0` and `v2` twice restores them. -/
@[simp] theorem Quad.exchange_exchange (q : Quad) : q.exchange.exchange = q := rfl

/-- The next full block is compressed after those before it. -/
theorem absorbBlocks_succ (v : Quad) (msg : List Byte) (n : Nat) :
    absorbBlocks v msg (n + 1) = compress (absorbBlocks v msg n) (leWord (blockBytes msg n)) := rfl

end Sys2Proof.Machine
end

