-- ==== Sys2Proof/Laws/Supplier.lean ====
section
/-! SUPPORT. What the supplier drives and what it has left, for each first item of its script (30_encoding R77, R79). -/

namespace Sys2Proof.Machine

variable {s : State} {rest : List Stimulus}

theorem due_of_nil (h : s.supplier = []) : s.due = [] := by simp [State.due, h, State.dueOf]

theorem due_of_edge {p : PortIn} (h : s.supplier = .edge p :: rest) : s.due = .edge p :: rest := by
  simp [State.due, h, State.dueOf]

theorem due_of_present {c : Command} (h : s.supplier = .present c :: rest) : s.due = .present c :: rest := by
  simp [State.due, h, State.dueOf]

/-- A step when the supplier has nothing left: an edge with an idle port. -/
theorem step_of_nil (h : s.supplier = []) : step s = edge idlePorts s := by
  have : s.withSupplier [] = s := by rw [← h]; rfl
  simp [step, State.ports, State.scriptAfter, due_of_nil h, this]

/-- A step under a raw edge of the script: that edge, whatever its port values. -/
theorem step_of_edge {p : PortIn} (h : s.supplier = .edge p :: rest) : step s = edge p (s.withSupplier rest) := by
  simp [step, State.ports, State.scriptAfter, due_of_edge h]

/-- A step that accepts the presented command. -/
theorem step_of_present_ready {c : Command} (h : s.supplier = .present c :: rest) (hr : s.cmdReady false = true) :
    step s = accept c (s.withSupplier rest) := by
  have ha : (s.withSupplier rest).acceptsAt { rst := false, cmdValid := true, cmd := c } = true := by
    simp only [State.cmdReady] at hr
    simpa [State.acceptsAt, State.cmdReady] using hr
  simp only [step, State.ports, State.scriptAfter, due_of_present h, hr, if_true]
  exact edge_of_accept ha

/-- A step while the block is busy: the sequencer's edge, the presented command kept. -/
theorem step_of_present_busy {c : Command} (h : s.supplier = .present c :: rest) (hr : s.cmdReady false = false) :
    step s = sequencerEdge s := by
  have ha : s.acceptsAt { rst := false, cmdValid := true, cmd := c } = false := by
    simp [State.acceptsAt, hr]
  have hs : s.withSupplier (.present c :: rest) = s := by rw [← h]; rfl
  simp only [step, State.ports, State.scriptAfter, due_of_present h, hr, Bool.false_eq_true, if_false, hs]
  exact edge_of_noAccept rfl ha

end Sys2Proof.Machine
end

