-- ==== Sys2Proof/Tests/Slice0.lean ====
section
/-! SUPPORT. The model's own tests, with expected values from spec/ (95_test_vectors and the rules named), and for every statement
with hypotheses a concrete state and operands that meet them. -/

namespace Sys2Proof.Tests

open Sys2Proof.Machine

/-! ## Small states and port values -/

/-- The reference key of 95_test_vectors. -/
def key0 : Word := 0x0706050403020100
def key1 : Word := 0x0f0e0d0c0b0a0908

/-- State I1 of 95_test_vectors section 2.3, as the reference design leaves it after `INIT K`. -/
def keyedK : State :=
  { State.reset with
    v0 := 0x7469686173716475, v1 := 0x6b617f6d656e6665, v2 := 0x6b7f62616d677361, v3 := 0x7b6b696e727e6c7b, fsm := .ready }

/-- State I1 with a tag: DONE, as far as the sequencer is concerned. -/
def finished : State := { keyedK with fsm := .done, lastblk := true, tagreg := 0x726fdb47dd0e0e31 }

/-- In COMP with `rc` rounds done, on a word of the given kind. -/
def compressing (rc : BitVec 3) (last : Bool) : State := { keyedK with fsm := .comp, rc := rc, lastblk := last }

/-- In FIN with `rc` rounds done. -/
def finalizing (rc : BitVec 3) : State := { keyedK with fsm := .fin, rc := rc, lastblk := true }

/-- A command on the port, `rst = 0`. -/
def offer (ctrl : BitVec 8) (d0 d1 : Word) : PortIn :=
  { rst := false, cmdValid := true, cmd := { ctrl := ctrl, d0 := d0, d1 := d1 } }

/-- No command on the port, `rst = 0`. -/
def quiet : PortIn := { rst := false, cmdValid := false, cmd := { ctrl := 0xff, d0 := 1, d1 := 2 } }

/-- A reset edge with an INIT on the port (vector Q5). -/
def resetting : PortIn := { rst := true, cmdValid := true, cmd := { ctrl := 0x01, d0 := key0, d1 := key1 } }

/-- The next state, if there is one. -/
def nextOf : Result → Option State
  | .next t => some t
  | .fault _ => none
  | .refused _ => none

/-! ## WellFormed: the one check refuses an ill-formed term -/

theorem test_wellFormed_refuses_eight_tail_bytes : (Instr.final 8 0).wellFormed = false := by decide
theorem test_wellFormed_takes_seven_tail_bytes : (Instr.final 7 0).wellFormed = true := by decide

/-! ## Decode: words written out bit by bit from 30_encoding R70, R71, R73 -/

theorem test_decode_nop : decode { ctrl := 0b00000000, d0 := 5, d1 := 6 } = .instr .nop := by decide
theorem test_decode_init : decode { ctrl := 0b00000001, d0 := 5, d1 := 6 } = .instr (.init 5 6) := by decide
theorem test_decode_block : decode { ctrl := 0b00000010, d0 := 5, d1 := 6 } = .instr (.block 5) := by decide
theorem test_decode_final : decode { ctrl := 0b00110011, d0 := 5, d1 := 6 } = .instr (.final 6 5) := by decide
theorem test_decode_clear : decode { ctrl := 0b00000100, d0 := 5, d1 := 6 } = .instr .clear := by decide
theorem test_decode_reserved_op : decode { ctrl := 0b00000101, d0 := 0, d1 := 0 } = .illegal .reservedOp := by decide
theorem test_decode_unused_nb : decode { ctrl := 0b00001010, d0 := 0, d1 := 0 } = .illegal .unusedNb := by decide
theorem test_decode_reserved_bits : decode { ctrl := 0b10000011, d0 := 0, d1 := 0 } = .illegal .reservedBits := by decide
/-- `{D1, D0, CTRL}` (R70): D1 of the word is its top 64 bits. -/
theorem test_word_fields :
    Command.ofWord 0x0f0e0d0c0b0a0908070605040302010001 = { ctrl := 0x01, d0 := key0, d1 := key1 } := by decide
theorem test_encode_final : encode (.final 7 0x000e0d0c0b0a0908) = { ctrl := 0x3b, d0 := 0x000e0d0c0b0a0908, d1 := 0 } := by
  decide

/-! ## The datapath (95_test_vectors sections 2.1, 2.2, 2.5) -/

theorem test_rotl_W6 : rotl 0x0123456789abcdef 16 = 0x456789abcdef0123 := by decide
theorem test_sipRound_SR8 : sipRound keyedK.vs =
    ⟨0x6864848c93698c85, 0x41d43f143c94a7dc, 0xf3f94792d7121732, 0x5e52f75805987c12⟩ := by decide
theorem test_sipRound_SR5 : sipRound ⟨0, 0, 0, 1⟩ =
    ⟨0x0000000000010001, 0x0000000000000001, 0x0000000100000000, 0x0000002000210001⟩ := by decide
/-- SR-X1, the inadmissible schedule's result, is not produced by any datapath. -/
theorem test_datapaths_SRX1 : ∀ d ∈ [Datapath.sequential, .singleAssignment, .permuted, .halfStages],
    datapathRounds d 1 keyedK.vs ≠
      ⟨0x6864848c93698c85, 0x12f3144a67a9c41a, 0xf2ec2a7ede1d3246, 0x5e52f75805987c12⟩ := by decide
theorem test_sipRoundInv_SR10 : sipRoundInv ⟨0, 0, 0, 1⟩ =
    ⟨0x40000000fff7f801, 0xc00000000007ffff, 0xfffffffff8000000, 0x0000000008000000⟩ := by decide
theorem test_leWord_S2 : leWord [0, 1, 2, 3, 4, 5, 6, 7] = 0x0706050403020100 := by decide
theorem test_finalWord_F3 : finalWord 0x07 7 0x0706050403020100 = 0x0706050403020100 := by decide
theorem test_finalWord_F8 : finalWord 0x03 3 0x1122334455667788 = 0x0300000000667788 := by decide
theorem test_sipHash24_T15 :
    sipHash24 key0 key1 [0, 1, 2, 3, 4, 5, 6, 7, 8, 9, 10, 11, 12, 13, 14] = 0xa129ca6149be45e5 := by decide

/-! ## The commands, one edge each -/

/-- N2: a NOP in DONE keeps the tag and STATUS 0014. -/
theorem test_nop_N2 : (nextOf (exec .nop finished)).map (fun t => (t.tag, t.status)) = some (0x726fdb47dd0e0e31, 0x0014) := by
  decide
/-- I1: `INIT K` after reset. -/
theorem test_init_I1 : nextOf (exec (.init key0 key1) State.reset) = some keyedK := by decide
/-- I4, I6: INIT drops the tag and keeps the error record. -/
theorem test_init_I4_I6 :
    (nextOf (exec (.init key0 key1) { finished with err := true, errcode := .seq })).map (fun t => (t.status, t.tag))
      = some (0x00a1, 0) := by decide
/-- CL1: CLEAR with an error recorded. -/
theorem test_clear_CL1 : nextOf (exec .clear { finished with err := true, errcode := .seq }) = some State.reset := by decide
/-- B1, the accept edge. -/
theorem test_block_B1 : (nextOf (exec (.block 0x0706050403020100) keyedK)).map (fun t => (t.v3, t.mreg, t.rc, t.status))
    = some (0x7c6d6c6a717c6d7b, 0x0706050403020100, 0, 0x080a) := by decide
/-- E8: BLOCK in DONE. -/
theorem test_block_E8 : (nextOf (exec (.block 0) finished)).map (fun t => (t.status, t.tag)) = some (0x00b4, 0x726fdb47dd0e0e31) := by
  decide
/-- F6: the length wraps to ff with 7 tail bytes after 248. -/
theorem test_final_F6 : (nextOf (exec (.final 7 0x0706050403020100) { keyedK with blen := 248 })).map (fun t => (t.mreg, t.status))
    = some (0xff06050403020100, 0xff0a) := by decide
/-- E7: FINAL in DONE. -/
theorem test_final_E7 : (nextOf (exec (.final 0 0) finished)).map (fun t => (t.status, t.tag)) = some (0x00b4, 0x726fdb47dd0e0e31) := by
  decide

/-! ## Edges and steps -/

/-- E2: with an error recorded, an illegal command changes nothing. -/
theorem test_illegal_E2 : nextOf (edge (offer 0x05 0 0) { State.reset with err := true, errcode := .seq })
    = some { State.reset with err := true, errcode := .seq } := by decide
/-- E9: an illegal command in READY. -/
theorem test_illegal_E9 : (nextOf (edge (offer 0x0a 7 7) keyedK)).map (fun t => (t.status, t.vs)) = some (0x0061, keyedK.vs) := by
  decide
/-- Q1, edge 2: `U = 2`, the empty message under K, from COMP into FIN. -/
theorem test_compression_Q1 :
    (nextOf (edge quiet { compressing 0 true with config := ⟨.two, .permuted⟩ })).map (fun t => (t.fsm, t.rc, t.vs))
      = some (.fin, 0, ⟨0x75126fd44af190b6, 0x084235164f06142b, 0x37b04f9f802683e2, 0x1b4678cde8253231⟩) := by decide
/-- T-E, edge 7: the last finalization round and the fold. -/
theorem test_finalization_TE :
    (nextOf (edge quiet { finalizing 3 with
      v0 := 0x3808f593fd8ef548, v1 := 0x2913fc753c3d6609, v2 := 0xa9fbd335618bbce1, v3 := 0xc1c9c6a9ec5136a2 })).map
      (fun t => (t.fsm, t.rc, t.tag)) = some (.done, 0, 0x726fdb47dd0e0e31) := by decide
/-- Q4, Q5: reset in FIN, with a command on the port. -/
theorem test_reset_Q4_Q5 : nextOf (edge resetting (finalizing 1)) = some State.reset := by decide
/-- The host's word for INIT runs as the first step after reset. -/
theorem test_step_fetchWord_init : nextOf (step (State.reset.withFetchWord 136 0x0f0e0d0c0b0a0908070605040302010001)) = some keyedK := by
  decide
/-- A command presented while busy is kept for a later edge. -/
theorem test_step_keeps_presented :
    (nextOf (step ((compressing 0 false).presentNext (encode .nop)))).map State.supplier = some [.present (encode .nop)] := by decide
/-- An idle supplier's port values are not read. -/
theorem test_step_idle : nextOf (step keyedK) = some keyedK := by decide

/-! ## Assembler text (30_encoding R77, R78; 95_test_vectors P1-P4) -/

theorem test_parse_final : parseLine "FINAL  7, 0x000e0d0c0b0a0908   -- 3b".toList = .line (.final 7 0x000e0d0c0b0a0908) := by decide
theorem test_parse_raw : parseLine ".raw 0x40".toList = .line (.raw 0x40 0 0) := by decide
theorem test_parse_blockb : parseLine "BLOCKB 08 09 0a 0b 0c 0d 0e 0f".toList = .line (.blockb [8, 9, 10, 11, 12, 13, 14, 15]) := by
  decide
theorem test_script_refuses_short_blockb : (Line.blockb [1, 2, 3]).script = none := by decide

/-! ## Witnesses: states and operands that meet the hypotheses of each statement -/

theorem witness_OperandsAreAssembledFromTheCommand :
    (0x03#8).toNat = 3 + 8 * 0 ∧ (0x3b#8).toNat = 3 + 8 * 7 := by decide

theorem witness_DecodeOfEncodeIsTheInstruction :
    (Instr.final 7 (BitVec.allOnes 64)).wellFormed = true ∧ (Instr.init 1 2).wellFormed = true := by decide

theorem witness_DecodedInstructionEncodesBack : decode { ctrl := 0x3b, d0 := 9, d1 := 9 } = .instr (.final 7 9) := by decide

theorem witness_StepRunsTheDecodedInstruction :
    (let s := keyedK.withSupplier [.edge (offer 0x02 9 9)]
     s.acceptsAt s.ports = true ∧ decode s.ports.cmd = .instr (.block 9)) ∧
    (let s := keyedK.presentNext { ctrl := 0x02, d0 := 9, d1 := 9 }
     s.supplier = .present { ctrl := 0x02, d0 := 9, d1 := 9 } :: [] ∧ s.cmdReady false = true ∧
     decode { ctrl := 0x02, d0 := 9, d1 := 9 } = .instr (.block 9)) ∧
    (State.reset.cmdReady false = true ∧ decodeTableWord 8 0x3b = some (.final 7 0)) := by decide

theorem witness_UnacceptedCommandHasNoEffect :
    quiet.cmdValid = false ∧ (compressing 1 true).cmdReady (offer 0x01 0 0).rst = false ∧ keyedK.cmdReady resetting.rst = false := by
  decide

theorem witness_AcceptanceCondition :
    State.reset.acceptsAt (offer 0x00 0 0) = true ∧ keyedK.acceptsAt (offer 0xff 0 0) = true ∧
    finished.acceptsAt (offer 0x01 0 0) = true := by decide

theorem witness_AcceptEdgesAreNoRoundEdges :
    (compressing 0 false).fsm = .comp ∧ (finalizing 3).fsm = .fin ∧ keyedK.fsm ≠ .comp ∧ keyedK.fsm ≠ .fin ∧ quiet.rst = false := by
  decide

theorem witness_IgnoredLanesDoNotMatter :
    (0x02#8 = 0x02#8 ∧ (0x3b#8).toNat = 3 + 8 * 7 ∧
     ∀ i, i < 7 → byteOf 0x000e0d0c0b0a0908 i = byteOf 0xff0e0d0c0b0a0908 i) ∧
    ((0x03#8).toNat = 3 + 8 * 0 ∧ ∀ i, i < 0 → byteOf 0 i = byteOf 1 i) := by decide

theorem witness_UnusedDataWordsDoNotMatter :
    (0x02#8 ≠ 0x01#8) ∧ (0x05#8 ∉ legalControls) ∧ (0x04#8 = 0x00#8 ∨ 0x04#8 = 0x04#8 ∨ 0x04#8 ∉ legalControls) := by decide

theorem witness_NopChangesNothing :
    (finished.acceptsAt (offer 0x00 1 1) = true ∧ (offer 0x00 1 1).cmd.ctrl = 0x00) ∧
    (keyedK.acceptsAt (offer 0x08 1 1) = true ∧ ctrlOp (offer 0x08 1 1).cmd.ctrl = 0 ∧ (offer 0x08 1 1).cmd.ctrl ≠ 0x00) := by
  decide

theorem witness_InitLoadsTheKey :
    finished.acceptsAt (offer 0x01 1 2) = true ∧ (offer 0x01 1 2).cmd = { ctrl := 0x01, d0 := 1, d1 := 2 } := by decide

theorem witness_ClearZeroizesEveryRegister :
    (keyedK.acceptsAt (offer 0x04 1 1) = true ∧ (offer 0x04 1 1).cmd.ctrl = 0x04) ∧ (compressing 1 true).busy = true ∧
    (let s : State := { finished with err := true, errcode := .seq }
     Instr.block 0 ≠ .clear ∧ s.err = true ∧ (nextOf (exec (.block 0) s)).isSome = true) := by decide

theorem witness_BlockStartsCompression : keyedK.fsm = .ready := by decide

theorem witness_FinalStartsCompression :
    keyedK.fsm = .ready ∧ (0x07#8).toNat = (keyedK.blen.toNat + 7) % 256 ∧
    (0x07ffffffffffffff : Word) = (BitVec.allOnes 64 &&& maskBytes 7) ||| ((0x07#8).zeroExtend 64 <<< 56) := by decide

theorem witness_OutOfSequenceOnlyRecordsTheError : State.reset.fsm = .unkeyed ∧ finished.fsm = .done := by decide

theorem witness_IllegalCommandOnlyRecordsTheError :
    (offer 0xff 0 0).rst = false ∧ (offer 0xff 0 0).cmdValid = true ∧ keyedK.cmdReady false = true ∧
    legal (offer 0xff 0 0).cmd.ctrl = false ∧ (nextOf (edge (offer 0xff 0 0) keyedK)).isSome = true := by decide

theorem witness_ErrorRecordAfterEveryEdge :
    (∃ t, edge resetting keyedK = .next t) ∧ (∃ t, edge (offer 0x04 0 0) keyedK = .next t) ∧
    (∃ t, edge (offer 0x02 0 0) finished = .next t) ∧ (∃ t, edge quiet (compressing 0 true) = .next t) :=
  ⟨⟨_, rfl⟩, ⟨_, rfl⟩, ⟨_, rfl⟩, ⟨_, rfl⟩⟩

theorem witness_ResetEdgeWins : resetting.rst = true := by decide

theorem witness_ResetAndClearValues :
    (resetting.rst = true ∧ ∃ t, edge resetting keyedK = .next t) ∧ (∃ t, exec .clear finished = .next t) :=
  ⟨⟨rfl, _, rfl⟩, _, rfl⟩

theorem witness_ReadyAndTagOutputs : keyedK.Inv = true ∧ keyedK.tagValid = false := by decide

theorem witness_PortsWhileBusy :
    (compressing 1 true).Inv = true ∧ (compressing 1 true).fsm = .comp ∧ (finalizing 3).Inv = true ∧ (finalizing 3).fsm = .fin := by
  decide

theorem witness_RotationBits : (1 ≤ 1 ∧ 1 ≤ 63 ∧ 0 < 64) ∧ (1 ≤ 63 ∧ 63 ≤ 63 ∧ 63 < 64) := by decide

theorem witness_PackingIsLittleEndian :
    ([0, 1, 2, 3, 4, 5, 6, 7] : List Byte).length ≤ 8 ∧ 7 < 8 ∧ ([] : List Byte).length ≤ 8 ∧ 0 < 8 := by decide

theorem witness_FinalWordBytes : (7 ≤ 7 ∧ 6 < 7) ∧ (0 ≤ 7 ∧ 0 ≤ 6 ∧ 6 < 7) := by decide

theorem witness_CompressionEdgeEffect :
    (let s := compressing 1 true
     quiet.rst = false ∧ s.fsm = .comp ∧ s.rc.toNat < 2 ∧ 1 = min (roundsEachEdge s) (2 - s.rc.toNat) ∧ s.rc.toNat + 1 = 2 ∧
     s.lastblk = true) ∧
    (let s := { compressing 0 false with config := ⟨.four, .halfStages⟩ }
     s.fsm = .comp ∧ s.rc.toNat < 2 ∧ 2 = min (roundsEachEdge s) (2 - s.rc.toNat) ∧ s.rc.toNat + 2 = 2 ∧ s.lastblk = false) ∧
    (let s := compressing 0 true
     s.fsm = .comp ∧ s.rc.toNat < 2 ∧ 1 = min (roundsEachEdge s) (2 - s.rc.toNat) ∧ s.rc.toNat + 1 ≠ 2) := by decide

theorem witness_FinalizationEdgeEffect :
    (let s := finalizing 3
     quiet.rst = false ∧ s.fsm = .fin ∧ s.rc.toNat < 4 ∧ 1 = min (roundsEachEdge s) (4 - s.rc.toNat) ∧ s.rc.toNat + 1 = 4) ∧
    (let s := { finalizing 0 with config := ⟨.two, .sequential⟩ }
     s.fsm = .fin ∧ s.rc.toNat < 4 ∧ 2 = min (roundsEachEdge s) (4 - s.rc.toNat) ∧ s.rc.toNat + 2 ≠ 4) := by decide

theorem witness_OnlyUnreachableRoundCountsAreRefused :
    (quiet.rst = false ∧ (compressing 2 false).fsm = .comp ∧ 2 ≤ (compressing 2 false).rc.toNat) ∧
    ((finalizing 4).fsm = .fin ∧ 4 ≤ (finalizing 4).rc.toNat) := by decide

theorem witness_IdleEdgeHolds :
    quiet.rst = false ∧ keyedK.acceptsAt quiet = false ∧ keyedK.fsm = .ready ∧ State.reset.fsm = .unkeyed ∧
    State.reset.acceptsAt quiet = false ∧ finished.fsm = .done ∧ finished.acceptsAt quiet = false := by decide

theorem witness_EdgeCounts :
    keyedK.config.roundsPerCycle = .one ∧ ({ keyedK with config := ⟨.two, .sequential⟩ } : State).config.roundsPerCycle = .two ∧
    ({ keyedK with config := ⟨.four, .sequential⟩ } : State).config.roundsPerCycle = .four := by decide

theorem witness_BlockCompletes :
    keyedK.fsm = .ready ∧ (∀ p ∈ [quiet, offer 0x04 0 0], p.rst = false) ∧ [quiet].length + 1 < blockEdges keyedK ∧
    [quiet, offer 0x04 0 0].length + 1 = blockEdges keyedK := by decide

theorem witness_FinalCompletes :
    keyedK.fsm = .ready ∧ (∀ p ∈ [quiet, quiet, quiet, quiet, quiet, offer 0x01 0 0], p.rst = false) ∧
    [quiet, quiet, quiet].length + 1 < finalEdges keyedK ∧
    [quiet, quiet, quiet, quiet, quiet, offer 0x01 0 0].length + 1 = finalEdges keyedK := by decide

theorem witness_DatapathDoesNotShow : ∃ t, edge quiet (compressing 0 true) = .next t := ⟨_, rfl⟩

theorem witness_ParametersNeverChange :
    (∃ t, step (State.reset.withSupplier [.edge quiet]) = .next t) ∧ (∃ t, edge resetting keyedK = .next t) :=
  ⟨⟨_, rfl⟩, ⟨_, rfl⟩⟩

theorem witness_EveryStepKeepsTheInvariant :
    (keyedK.presentNext (encode (.final 7 9))).Inv = true ∧ ∃ t, step (keyedK.presentNext (encode (.final 7 9))) = .next t :=
  ⟨by decide, _, rfl⟩

theorem witness_TheMachineNeverStops : (finalizing 3).Inv = true ∧ (compressing 1 false).Inv = true := by decide

theorem witness_OnlyTheseEdgesWriteTheWorkingState : ∃ t, edge (offer 0x04 0 0) keyedK = .next t ∧ t.vs ≠ keyedK.vs :=
  ⟨_, rfl, by decide⟩

theorem witness_DoneIsEnteredAndLeftOnlySo :
    (∃ t, edge (offer 0x02 9 0) finished = .next t ∧ finished.fsm = .done ∧ t.fsm = .done) ∧
    (∃ t, edge (offer 0x01 9 0) finished = .next t ∧ t.fsm ≠ .done) ∧
    (∃ t, edge quiet (finalizing 3) = .next t ∧ (finalizing 3).fsm ≠ .done ∧ t.fsm = .done) :=
  ⟨⟨_, rfl, rfl, rfl⟩, ⟨_, rfl, by decide⟩, ⟨_, rfl, by decide, rfl⟩⟩

theorem witness_SecretsLeaveOnlyThroughTheTag :
    keyedK.withoutSecrets = ({ keyedK with v0 := 0, mreg := 5 } : State).withoutSecrets ∧
    (offer 0x02 1 2).rst = (offer 0x02 3 4).rst ∧ (offer 0x02 1 2).cmdValid = (offer 0x02 3 4).cmdValid ∧
    (offer 0x02 1 2).cmd.ctrl = (offer 0x02 3 4).cmd.ctrl ∧ (∃ t, edge (offer 0x02 1 2) keyedK = .next t) ∧
    (∃ t, edge (offer 0x02 3 4) { keyedK with v0 := 0, mreg := 5 } = .next t) ∧ ¬ (keyedK.fsm = .fin) :=
  ⟨by decide, rfl, rfl, rfl, ⟨_, rfl⟩, ⟨_, rfl⟩, by decide⟩

theorem witness_NothingSurvivesAnInit :
    ∃ a₁ a₂ t₁ t₂, finished.config = State.reset.config ∧ finished.supplier = State.reset.supplier ∧
      exec (.init 1 2) finished = .next a₁ ∧ exec (.init 1 2) State.reset = .next a₂ ∧
      edges [offer 0x02 9 0, quiet] a₁ = .next t₁ ∧ edges [offer 0x02 9 0, quiet] a₂ = .next t₂ :=
  ⟨_, _, _, _, rfl, rfl, rfl, rfl, rfl, rfl⟩

theorem witness_BusyPeriodIsBounded :
    (compressing 0 true).Inv = true ∧ (compressing 0 true).busy = true ∧ (∀ p ∈ List.replicate 6 quiet, p.rst = false) ∧
    (List.replicate 6 quiet).length = 6 := by decide

theorem witness_SatisfiedWaitTakesNoEdgeUnmetWaitIdles :
    (keyedK.withSupplier [.wait]).cmdReady false = true ∧ (finished.withSupplier [.waitTag]).tagValid = true ∧
    ((compressing 0 true).withSupplier [.wait]).cmdReady false = false ∧ (keyedK.withSupplier [.waitTag]).tagValid = false ∧
    (keyedK.withSupplier [.waitTag]).supplier = .waitTag :: [] := by decide

theorem witness_PresentedCommandIsAccepted :
    ((finalizing 2).presentNext (encode .clear)).Inv = true ∧
    ((finalizing 2).presentNext (encode .clear)).supplier = .present (encode .clear) :: [] := by decide

theorem witness_ByteListForms :
    ([0, 1, 2, 3, 4, 5, 6, 7] : List Byte).length = 8 ∧ ([0, 1, 2, 3, 4, 5, 6] : List Byte).length ≤ 7 := by decide

theorem witness_ScriptDrivesThePorts :
    (keyedK.withSupplier [.edge resetting]).supplier = .edge resetting :: [] ∧ keyedK.supplier = [] := by decide

theorem witness_EmptyMessage : ∃ a, exec (.init 1 2) finished = .next a := ⟨_, rfl⟩

theorem witness_HashComputesSipHash :
    (finished.withSupplier (hashScript 1 2 [3] ++ [.wait])).cmdReady false = true ∧
    (finished.withSupplier (hashScript 1 2 [3] ++ [.wait])).supplier = hashScript 1 2 [3] ++ [.wait] := ⟨by decide, rfl⟩

theorem witness_AnySplitIsHashedAsTheMessageItSpells :
    (let script := scriptOf (.init 1 2 :: [0x99].map .block ++ [.final 7 5]) ++ .waitTag :: []
     (State.reset.withSupplier script).cmdReady false = true ∧ 7 ≤ 7 ∧ (State.reset.withSupplier script).supplier = script) :=
  ⟨by decide, by decide, rfl⟩

end Sys2Proof.Tests
end

section
/-! SUPPORT. Every datapath's chain of `k` rounds is `SipRound^k` (40_sipround R104, R106-R108; 43_sequencer R179). -/

namespace Sys2Proof.Machine

theorem sipRoundSsa_eq (v : Quad) : sipRoundSsa v = sipRound v := rfl

theorem sipRoundPermuted_eq (v : Quad) : sipRoundPermuted v = sipRound v := rfl

/-- Stages `2k` and `2k + 1` of the half-round chain make up one round. -/
theorem halfStage_pair (k : Nat) (v : Quad) : halfStage (2 * k + 1) (halfStage (2 * k) v) = sipRound v := by
  simp only [halfStage, Nat.mul_add_mod_self_left, Nat.mul_mod_right]
  rfl

theorem halfStages_eq_sipRounds (k : Nat) (v : Quad) : halfStages (2 * k) v = sipRounds k v := by
  induction k with
  | zero => rfl
  | succ k ih =>
    rw [sipRounds_succ, ← ih, ← halfStage_pair k]
    rfl

theorem datapathRounds_eq_sipRounds (d : Datapath) (k : Nat) (v : Quad) : datapathRounds d k v = sipRounds k v := by
  cases d with
  | sequential => rfl
  | singleAssignment => rw [datapathRounds, funext sipRoundSsa_eq, sipRounds]
  | permuted => rw [datapathRounds, funext sipRoundPermuted_eq, sipRounds]
  | halfStages => exact halfStages_eq_sipRounds k v

theorem State.afterRounds_eq_sipRounds (s : State) (k : Nat) : s.afterRounds k = sipRounds k s.vs :=
  datapathRounds_eq_sipRounds s.config.datapath k s.vs

/-- Rounds split over two edges are the rounds of one. -/
theorem State.afterRounds_midPhase (s : State) (k j : Nat) : (s.midPhase k).afterRounds j = s.afterRounds (k + j) := by
  simp only [afterRounds_eq_sipRounds, vs_midPhase, sipRounds_add, Nat.add_comm]

end Sys2Proof.Machine
end

section
/-! SUPPORT. A whole phase of rounds at once: compression's two and finalization's four, for every `ROUNDS_PER_CYCLE`
(43_sequencer R172, R173, R178). -/

namespace Sys2Proof.Machine

/-- The rounds that make up the phase a busy state is in (43_sequencer R172, R173). -/
def Fsm.phaseRounds : Fsm → Nat
  | .unkeyed => 0
  | .ready => 0
  | .comp => 2
  | .fin => 4
  | .done => 0

/-- What the last edge of the phase leaves when it applies `k` rounds (43_sequencer R172, R173). -/
def State.phaseEnd (s : State) (k : Nat) : State := if s.fsm = .comp then s.compressed k else s.finalized k

theorem State.phaseEnd_of_comp {s : State} (h : s.fsm = .comp) (k : Nat) : s.phaseEnd k = s.compressed k := if_pos h

theorem State.phaseEnd_of_fin {s : State} (h : s.fsm = .fin) (k : Nat) : s.phaseEnd k = s.finalized k := by
  simp [phaseEnd, h]

/-- Rounds an earlier edge of the phase has applied count towards those of the last. -/
theorem State.phaseEnd_midPhase (s : State) (k j : Nat) : (s.midPhase k).phaseEnd j = s.phaseEnd (k + j) := by
  simp only [phaseEnd, compressed, finalized, afterRounds_midPhase, midPhase_fsm, midPhase_lastblk, midPhase_mreg]
  rfl

theorem Fsm.accepts_of_phaseRounds_pos {f : Fsm} (h : 0 < f.phaseRounds) : f.accepts = false := by
  cases f with
  | comp | fin => rfl
  | unkeyed | ready | done => exact absurd h (Nat.lt_irrefl 0)

theorem Fsm.phaseRounds_le (f : Fsm) : f.phaseRounds ≤ 4 := by cases f <;> decide

/-- A round edge inside a phase, whichever the phase. -/
theorem sequencerEdge_of_phase {s : State} {k : Nat} (h : s.rc.toNat < s.fsm.phaseRounds)
    (hk : k = roundsNow s s.fsm.phaseRounds) :
    sequencerEdge s =
      .next (if s.rc.toNat + k = s.fsm.phaseRounds then s.phaseEnd k else s.midPhase k) := by
  subst hk
  cases hf : s.fsm with
  | comp =>
    have hrc : ¬ 2 ≤ s.rc.toNat := by simpa [hf, Fsm.phaseRounds] using h
    simp only [sequencerEdge, compressionEdge, hf, Fsm.phaseRounds, hrc, if_false, State.phaseEnd_of_comp hf]
    split <;> rfl
  | fin =>
    have hrc : ¬ 4 ≤ s.rc.toNat := by simpa [hf, Fsm.phaseRounds] using h
    simp only [sequencerEdge, finalizationEdge, hf, Fsm.phaseRounds, hrc, if_false, State.phaseEnd_of_fin hf]
    split <;> rfl
  | unkeyed | ready | done => simp [hf, Fsm.phaseRounds] at h

/-- `BusyRun n s t`: `n` edges of the sequencer lead from `s` to `t`, and no state before `t` accepts a command. -/
inductive BusyRun : Nat → State → State → Prop where
  | refl (s : State) : BusyRun 0 s s
  | head {n : Nat} {s u t : State} (busy : s.fsm.accepts = false) (first : sequencerEdge s = .next u)
      (tail : BusyRun n u t) : BusyRun (n + 1) s t

theorem BusyRun.trans {m n : Nat} {s u t : State} (h : BusyRun m s u) (h' : BusyRun n u t) : BusyRun (m + n) s t := by
  induction h with
  | refl => simpa using h'
  | head busy first _ ih => rw [Nat.add_right_comm]; exact .head busy first (ih h')

theorem roundsEachEdge_pos (s : State) : 0 < roundsEachEdge s := by
  unfold roundsEachEdge
  split <;> decide

@[simp] theorem roundsEachEdge_midPhase (s : State) (k : Nat) : roundsEachEdge (s.midPhase k) = roundsEachEdge s := rfl

theorem phaseEdges_of_le {s : State} {n : Nat} (hn : 0 < n) (hle : n ≤ roundsEachEdge s) : phaseEdges s n = 1 :=
  Nat.div_eq_of_lt_le (by omega) (by omega)

theorem phaseEdges_of_gt {s : State} {n : Nat} (hlt : roundsEachEdge s < n) :
    phaseEdges s n = phaseEdges s (n - roundsEachEdge s) + 1 := by
  have hU := roundsEachEdge_pos s
  unfold phaseEdges
  rw [← Nat.add_div_right _ hU]
  congr 1
  omega

/-- The `n` rounds left of a phase take `ceil(n / U)` edges and end as if the last edge had applied them all. -/
theorem busyRun_phase (n : Nat) (s : State) (hn : 0 < n) (hrc : s.rc.toNat + n = s.fsm.phaseRounds) :
    BusyRun (phaseEdges s n) s (s.phaseEnd n) := by
  have hbusy : s.fsm.accepts = false := Fsm.accepts_of_phaseRounds_pos (by omega)
  have hnow : roundsNow s s.fsm.phaseRounds = min (roundsEachEdge s) n := by
    unfold roundsNow
    congr 1
    omega
  by_cases hle : n ≤ roundsEachEdge s
  · have hedge := sequencerEdge_of_phase (s := s) (k := n) (by omega) (by rw [hnow, Nat.min_eq_right hle])
    rw [if_pos hrc] at hedge
    rw [phaseEdges_of_le hn hle]
    exact .head hbusy hedge (.refl _)
  · have hU := roundsEachEdge_pos s
    have hmax := s.fsm.phaseRounds_le
    have hedge := sequencerEdge_of_phase (s := s) (k := roundsEachEdge s) (by omega) (by rw [hnow]; omega)
    rw [if_neg (by omega)] at hedge
    have hrest := busyRun_phase (n - roundsEachEdge s) (s.midPhase (roundsEachEdge s)) (by omega)
      (by simp only [State.midPhase_rc, State.midPhase_fsm, BitVec.toNat_add, BitVec.toNat_ofNat]; omega)
    rw [State.phaseEnd_midPhase, Nat.add_sub_of_le (by omega)] at hrest
    rw [phaseEdges_of_gt (by omega)]
    exact .head hbusy hedge hrest
termination_by n

end Sys2Proof.Machine
end

section
/-! SUPPORT. The completed effects of BLOCK and FINAL (42_message_commands R140, R143; 43_sequencer R178). -/

namespace Sys2Proof.Machine

/-- The completed effect of a BLOCK accepted in READY (42_message_commands R140). -/
def State.blockDone (s : State) (m : Word) : State :=
  { s.withVs (compress s.vs m) with mreg := m, lastblk := false, blen := s.blen + 8, rc := 0, fsm := .ready }

/-- The length byte a FINAL of `nb` bytes puts in its word (42_message_commands R143). -/
def State.finalLength (s : State) (nb : Nat) : BitVec 8 := s.blen + BitVec.ofNat 8 nb

/-- The word a FINAL makes of its operand (42_message_commands R143, R144). -/
def State.finalWordOf (s : State) (nb : Nat) (w : Word) : Word := finalWord (s.finalLength nb) nb w

/-- The working state when a FINAL accepted in READY is complete (42_message_commands R143). -/
def State.finalQuad (s : State) (nb : Nat) (w : Word) : Quad := finalize (compress s.vs (s.finalWordOf nb w))

/-- The completed effect of a FINAL accepted in READY (42_message_commands R143). -/
def State.finalDone (s : State) (nb : Nat) (w : Word) : State :=
  { s.withVs (s.finalQuad nb w) with
    mreg := s.finalWordOf nb w, lastblk := true, blen := s.finalLength nb, rc := 0,
    tagreg := fold (s.finalQuad nb w), fsm := .done }

section
variable (s : State) (m : Word)
@[simp] theorem State.vs_blockDone : (s.blockDone m).vs = compress s.vs m := rfl
@[simp] theorem State.blockDone_mreg : (s.blockDone m).mreg = m := rfl
@[simp] theorem State.blockDone_blen : (s.blockDone m).blen = s.blen + 8 := rfl
@[simp] theorem State.blockDone_fsm : (s.blockDone m).fsm = .ready := rfl
@[simp] theorem State.blockDone_err : (s.blockDone m).err = s.err := rfl
@[simp] theorem State.blockDone_errcode : (s.blockDone m).errcode = s.errcode := rfl
@[simp] theorem State.blockDone_config : (s.blockDone m).config = s.config := rfl
@[simp] theorem State.blockDone_supplier : (s.blockDone m).supplier = s.supplier := rfl
end

section
variable (s : State) (nb : Nat) (w : Word)
@[simp] theorem State.vs_finalDone : (s.finalDone nb w).vs = s.finalQuad nb w := rfl
@[simp] theorem State.finalDone_mreg : (s.finalDone nb w).mreg = s.finalWordOf nb w := rfl
@[simp] theorem State.finalDone_fsm : (s.finalDone nb w).fsm = .done := rfl
@[simp] theorem State.finalDone_tag : (s.finalDone nb w).tag = fold (s.finalQuad nb w) := rfl
@[simp] theorem State.finalDone_blen : (s.finalDone nb w).blen = s.finalLength nb := rfl
@[simp] theorem State.finalDone_err : (s.finalDone nb w).err = s.err := rfl
@[simp] theorem State.finalDone_errcode : (s.finalDone nb w).errcode = s.errcode := rfl
@[simp] theorem State.finalDone_config : (s.finalDone nb w).config = s.config := rfl
@[simp] theorem State.finalDone_supplier : (s.finalDone nb w).supplier = s.supplier := rfl
end

/-- Both compression rounds after a BLOCK's accept edge complete the BLOCK. -/
theorem compressed_takeWord_block (s : State) (m : Word) :
    (s.takeWord m (s.blen + 8) false).compressed 2 = s.blockDone m := by
  simp only [State.compressed, State.afterRounds_eq_sipRounds, State.takeWord_lastblk]
  rfl

/-- Both phases after a FINAL's accept edge complete the FINAL. -/
theorem finalized_compressed_takeWord_final (s : State) (nb : Nat) (w : Word) :
    ((s.takeWord (s.finalWordOf nb w) (s.finalLength nb) true).compressed 2).finalized 4 = s.finalDone nb w := by
  simp only [State.finalized, State.compressed, State.afterRounds_eq_sipRounds, State.takeWord_lastblk]
  rfl

theorem exec_block_of_ready {s : State} (h : s.fsm = .ready) (m : Word) :
    exec (.block m) s = .next (s.takeWord m (s.blen + 8) false) := by
  simp [exec, execBlock, h]

theorem exec_final_of_ready {s : State} (h : s.fsm = .ready) (nb : Nat) (w : Word) :
    exec (.final nb w) s = .next (s.takeWord (s.finalWordOf nb w) (s.finalLength nb) true) := by
  simp [exec, execFinal, h, State.finalWordOf, State.finalLength]

/-- The rounds that follow a BLOCK's accept edge. -/
theorem busyRun_block (s : State) (m : Word) :
    BusyRun (phaseEdges s 2) (s.takeWord m (s.blen + 8) false) (s.blockDone m) := by
  have h := busyRun_phase 2 (s.takeWord m (s.blen + 8) false) (by decide) rfl
  rwa [State.phaseEnd_of_comp rfl, compressed_takeWord_block] at h

/-- The rounds that follow a FINAL's accept edge. -/
theorem busyRun_final (s : State) (nb : Nat) (w : Word) :
    BusyRun (phaseEdges s 2 + phaseEdges s 4) (s.takeWord (s.finalWordOf nb w) (s.finalLength nb) true)
      (s.finalDone nb w) := by
  have hcomp := busyRun_phase 2 (s.takeWord (s.finalWordOf nb w) (s.finalLength nb) true) (by decide) rfl
  have hfin := busyRun_phase 4 ((s.takeWord (s.finalWordOf nb w) (s.finalLength nb) true).compressed 2) (by decide) rfl
  rw [State.phaseEnd_of_comp rfl] at hcomp
  rw [State.phaseEnd_of_fin rfl, finalized_compressed_takeWord_final] at hfin
  exact hcomp.trans hfin

end Sys2Proof.Machine
end

section
/-! SUPPORT. Runs of the machine under a script of encoded commands (30_encoding R77, R79). -/

namespace Sys2Proof.Machine

theorem run_succ {n : Nat} {s u : State} (h : step s = .next u) :
    Host.Core.run core (n + 1) s = Host.Core.run core n u := by
  simp only [Host.Core.run, core, h]

theorem run_trans {m n : Nat} {s u : State} (h : Host.Core.run core m s = .next u) :
    Host.Core.run core (m + n) s = Host.Core.run core n u := by
  induction m generalizing s with
  | zero => cases h; rw [Nat.zero_add]
  | succ m ih =>
    rw [Nat.add_right_comm]
    cases hs : step s with
    | next t => rw [run_succ hs] at h ⊢; exact ih h
    | fault r => simp [Host.Core.run, core, hs] at h
    | refused r => simp [Host.Core.run, core, hs] at h

theorem withSupplier_of_supplier_eq {s : State} {l : List Stimulus} (h : s.supplier = l) : s.withSupplier l = s := by
  subst h
  rfl

/-- The script's first item, if any, is not a raw edge: what it drives is quiet or a command held until accepted. -/
def waitsForReady : List Stimulus → Bool
  | .edge _ :: _ => false
  | [] | .present _ :: _ | .wait :: _ | .waitTag :: _ => true

/-- While the block is busy, a supplier that waits leaves the edge to the sequencer. -/
theorem step_of_busy {s : State} (hbusy : s.fsm.accepts = false) (hwait : waitsForReady s.supplier = true) :
    step s = sequencerEdge s := by
  have hready : s.cmdReady false = false := by simp [State.cmdReady, hbusy]
  have htag : s.tagValid = false := by
    cases hf : s.fsm <;> simp_all [State.tagValid, Fsm.accepts]
  have hidle : s.acceptsAt idlePorts = false := rfl
  cases hs : s.supplier with
  | nil => rw [step_of_nil hs, edge_of_noAccept rfl hidle]
  | cons item rest =>
    cases item with
    | edge p => simp [hs, waitsForReady] at hwait
    | present c => exact step_of_present_busy hs hready
    | wait =>
      have hdue : s.due = .wait :: rest := by simp [State.due, hs, State.dueOf, hready]
      simp only [step, State.ports, State.scriptAfter, hdue, withSupplier_of_supplier_eq hs]
      exact edge_of_noAccept rfl hidle
    | waitTag =>
      have hdue : s.due = .waitTag :: rest := by simp [State.due, hs, State.dueOf, htag]
      simp only [step, State.ports, State.scriptAfter, hdue, withSupplier_of_supplier_eq hs]
      exact edge_of_noAccept rfl hidle

/-- A sequencer edge leaves the supplier's script alone. -/
theorem sequencerEdge_supplier {s t : State} (h : sequencerEdge s = .next t) : t.supplier = s.supplier := by
  cases hf : s.fsm <;> simp only [sequencerEdge, hf, holdEdge] at h
  case comp => obtain ⟨-, ⟨-, rfl⟩ | ⟨-, rfl⟩⟩ := compressionEdge_cases h <;> simp
  case fin => obtain ⟨-, ⟨-, rfl⟩ | ⟨-, rfl⟩⟩ := finalizationEdge_cases h <;> simp
  all_goals (cases h; rfl)

theorem BusyRun.run {n : Nat} {s t : State} (h : BusyRun n s t) (hwait : waitsForReady s.supplier = true) :
    Host.Core.run core n s = .next t := by
  induction h with
  | refl => rfl
  | head busy first _ ih =>
    rw [run_succ (by rw [step_of_busy busy hwait, first])]
    exact ih (by rwa [sequencerEdge_supplier first])

/-- The three CTRL fields of FINAL's encoding (30_encoding R71, R73). -/
theorem ctrl_fields_encode_final {nb : Nat} (hnb : nb < 8) (w : Word) :
    ctrlRsv (encode (.final nb w)).ctrl = 0 ∧ (ctrlOp (encode (.final nb w)).ctrl).toNat = 3 ∧
    (ctrlNb (encode (.final nb w)).ctrl).toNat = nb := by
  simp only [encode]
  decide +revert

theorem decode_encode {i : Instr} (h : i.wellFormed = true) : decode (encode i) = .instr i := by
  cases i with
  | nop | init _ _ | block _ | clear =>
    simp [decode, encode, Decoded.withoutNb, ctrlRsv, ctrlOp, ctrlNb]
  | final nb w =>
    have hnb : nb < 8 := by simpa [Instr.wellFormed, Nat.lt_succ_iff] using h
    obtain ⟨hrsv, hop, hnbField⟩ := ctrl_fields_encode_final hnb w
    simp only [decode, hrsv, hop, hnbField, ne_eq, not_true_eq_false, if_false]
    rfl

/-- A step of a ready block whose supplier presents an instruction's encoding. -/
theorem step_of_present_encode {s : State} {i : Instr} {rest : List Stimulus}
    (hs : s.supplier = .present (encode i) :: rest) (hr : s.cmdReady false = true) (hi : i.wellFormed = true) :
    step s = exec i (s.withSupplier rest) := by
  rw [step_of_present_ready hs hr, accept, decode_encode hi]

theorem cmdReady_of_ready {s : State} (h : s.fsm = .ready) : s.cmdReady false = true := by
  simp [State.cmdReady, h, Fsm.accepts]

/-- A BLOCK runs from its presentation in READY to its completed effect in the edges of 43_sequencer R176. -/
theorem run_block {s : State} {m : Word} {rest : List Stimulus} (hf : s.fsm = .ready)
    (hs : s.supplier = .present (encode (.block m)) :: rest) (hwait : waitsForReady rest = true) :
    Host.Core.run core (blockEdges s) s = .next ((s.withSupplier rest).blockDone m) := by
  have hstep := step_of_present_encode hs (cmdReady_of_ready hf) rfl
  rw [exec_block_of_ready (s := s.withSupplier rest) hf] at hstep
  rw [blockEdges, Nat.add_comm, run_succ hstep]
  exact (busyRun_block (s.withSupplier rest) m).run hwait

/-- A FINAL runs from its presentation in READY to its completed effect in the edges of 43_sequencer R176. -/
theorem run_final {s : State} {nb : Nat} {w : Word} {rest : List Stimulus} (hf : s.fsm = .ready) (hnb : nb ≤ 7)
    (hs : s.supplier = .present (encode (.final nb w)) :: rest) (hwait : waitsForReady rest = true) :
    Host.Core.run core (finalEdges s) s = .next ((s.withSupplier rest).finalDone nb w) := by
  have hstep := step_of_present_encode hs (cmdReady_of_ready hf) (by simpa [Instr.wellFormed] using hnb)
  rw [exec_final_of_ready (s := s.withSupplier rest) hf] at hstep
  rw [finalEdges, Nat.add_assoc, Nat.add_comm, run_succ hstep]
  exact (busyRun_final (s.withSupplier rest) nb w).run hwait

/-- The script of a list of BLOCKs. -/
def blocksScript (ms : List Word) : List Stimulus := scriptOf (ms.map .block)

theorem waitsForReady_blocksScript_append (ms : List Word) {rest : List Stimulus} (h : waitsForReady rest = true) :
    waitsForReady (blocksScript ms ++ rest) = true := by
  cases ms with
  | nil => exact h
  | cons m ms => rfl

/-- Any number of BLOCKs in a row, from READY to READY. -/
theorem run_blocks {ms : List Word} {s : State} {rest : List Stimulus} (hf : s.fsm = .ready)
    (hs : s.supplier = blocksScript ms ++ rest) (hwait : waitsForReady rest = true) :
    Host.Core.run core (ms.length * blockEdges s) s = .next (ms.foldl State.blockDone (s.withSupplier rest)) := by
  induction ms generalizing s with
  | nil =>
    have hkeep : s.withSupplier rest = s := withSupplier_of_supplier_eq hs
    rw [List.length_nil, Nat.zero_mul, hkeep]
    rfl
  | cons m ms ih =>
    have hfirst := run_block hf hs (waitsForReady_blocksScript_append ms hwait)
    rw [List.length_cons, Nat.succ_mul, Nat.add_comm, run_trans hfirst]
    exact ih (s := (s.withSupplier (blocksScript ms ++ rest)).blockDone m) rfl rfl

section
variable (ms : List Word) (s : State)
theorem vs_foldl_blockDone : (ms.foldl State.blockDone s).vs = ms.foldl compress s.vs := by
  induction ms generalizing s with
  | nil => rfl
  | cons m ms ih => exact ih _

theorem foldl_blockDone_blen : (ms.foldl State.blockDone s).blen = s.blen + BitVec.ofNat 8 (8 * ms.length) := by
  induction ms generalizing s with
  | nil => simp
  | cons m ms ih =>
    rw [List.foldl_cons, ih, State.blockDone_blen, List.length_cons, Nat.mul_succ, BitVec.ofNat_add, BitVec.add_assoc,
      BitVec.add_comm (BitVec.ofNat 8 (8 * ms.length))]
    rfl

/-- The registers and fields that BLOCKs accepted in READY keep. -/
theorem foldl_blockDone_frame (hf : s.fsm = .ready) :
    (ms.foldl State.blockDone s).fsm = .ready ∧ (ms.foldl State.blockDone s).err = s.err ∧
    (ms.foldl State.blockDone s).errcode = s.errcode ∧ (ms.foldl State.blockDone s).config = s.config ∧
    (ms.foldl State.blockDone s).supplier = s.supplier := by
  induction ms generalizing s with
  | nil => exact ⟨hf, rfl, rfl, rfl, rfl⟩
  | cons m ms ih => exact ih _ rfl

theorem withSupplier_foldl_blockDone (l : List Stimulus) :
    (ms.foldl State.blockDone s).withSupplier l = ms.foldl State.blockDone (s.withSupplier l) := by
  induction ms generalizing s with
  | nil => rfl
  | cons m ms ih => exact ih _
end

/-- The edge count of FINAL depends on the parameters alone (43_sequencer R170). -/
theorem finalEdges_eq_of_config_eq {s t : State} (h : s.config = t.config) : finalEdges s = finalEdges t := by
  simp only [finalEdges, phaseEdges, roundsEachEdge, h]

/-- BLOCKs and a FINAL run from READY to their completed effects, in the edges of 43_sequencer R176. -/
theorem run_blocks_final {ms : List Word} {s : State} {nb : Nat} {w : Word} {rest : List Stimulus}
    (hf : s.fsm = .ready) (hnb : nb ≤ 7) (hwait : waitsForReady rest = true)
    (hs : s.supplier = blocksScript ms ++ .present (encode (.final nb w)) :: rest) :
    Host.Core.run core (ms.length * blockEdges s + finalEdges s) s =
      .next ((ms.foldl State.blockDone (s.withSupplier rest)).finalDone nb w) := by
  have hblocks := run_blocks hf hs rfl
  obtain ⟨hfsm, -, -, hconfig, hsupplier⟩ :=
    foldl_blockDone_frame ms (s.withSupplier (.present (encode (.final nb w)) :: rest)) hf
  have hfinal := run_final hfsm hnb hsupplier hwait
  rw [finalEdges_eq_of_config_eq (t := s) hconfig, withSupplier_foldl_blockDone] at hfinal
  exact (run_trans hblocks).trans hfinal

/-- INIT, BLOCKs and a FINAL run from any ready block to their completed effects, in the edges of 43_sequencer R176. -/
theorem run_init_blocks_final {s : State} {k0 k1 : Word} {ms : List Word} {nb : Nat} {w : Word} {rest : List Stimulus}
    (hr : s.cmdReady false = true) (hnb : nb ≤ 7) (hwait : waitsForReady rest = true)
    (hs : s.supplier = scriptOf (.init k0 k1 :: ms.map .block ++ [.final nb w]) ++ rest) :
    Host.Core.run core (1 + ms.length * blockEdges s + finalEdges s) s =
      .next ((ms.foldl State.blockDone ((s.withSupplier rest).keyed k0 k1)).finalDone nb w) := by
  have hscript : s.supplier = .present (encode (.init k0 k1)) ::
      (blocksScript ms ++ .present (encode (.final nb w)) :: rest) := by
    simp [hs, scriptOf, blocksScript]
  have hinit := step_of_present_encode hscript hr rfl
  rw [Nat.add_assoc, Nat.add_comm, run_succ hinit]
  exact run_blocks_final (ms := ms) (w := w) (s := (s.withSupplier _).keyed k0 k1) rfl hnb hwait rfl

end Sys2Proof.Machine
end

section
/-! SUPPORT. The reference function over the list of its blocks (42_message_commands R150). -/

namespace Sys2Proof.Machine

/-- The words of a message's full blocks, in order (42_message_commands R150). -/
def blockWords (msg : List Byte) : List Word := (List.range (msg.length / 8)).map (fun j => leWord (blockBytes msg j))

@[simp] theorem length_blockWords (msg : List Byte) : (blockWords msg).length = msg.length / 8 := by simp [blockWords]

theorem hashCommands_eq_blockWords (k0 k1 : Word) (msg : List Byte) :
    hashCommands k0 k1 msg =
      .init k0 k1 :: (blockWords msg).map .block ++ [.final (msg.length % 8) (leWord (tailBytes msg))] := by
  simp [hashCommands, blockWords]

theorem absorbBlocks_eq_foldl (v : Quad) (msg : List Byte) (n : Nat) :
    absorbBlocks v msg n = ((List.range n).map (fun j => leWord (blockBytes msg j))).foldl compress v := by
  induction n with
  | zero => rfl
  | succ n ih => rw [absorbBlocks_succ, ih, List.range_succ, List.map_append, List.foldl_append]; rfl

end Sys2Proof.Machine
end

section
/-! HASH computes SipHash-2-4 (42_message_commands R150, R151). -/

namespace Sys2Proof.Machine

/-- The length byte after HASH's BLOCKs and FINAL is the message's length modulo 256 (42_message_commands R145). -/
theorem finalLength_foldl_blockDone_keyed (s : State) (k0 k1 : Word) (msg : List Byte) :
    ((blockWords msg).foldl State.blockDone (s.keyed k0 k1)).finalLength (msg.length % 8) =
      BitVec.ofNat 8 msg.length := by
  rw [State.finalLength, foldl_blockDone_blen, State.keyed_blen, length_blockWords, zero_add, ← BitVec.ofNat_add,
    Nat.div_add_mod]

/-- The working state after HASH's FINAL is the reference function's before the fold (42_message_commands R150). -/
theorem finalQuad_foldl_blockDone_keyed (s : State) (k0 k1 : Word) (msg : List Byte) :
    ((blockWords msg).foldl State.blockDone (s.keyed k0 k1)).finalQuad (msg.length % 8) (leWord (tailBytes msg)) =
      finalize (compress (absorbBlocks (initQuad k0 k1) msg (msg.length / 8)) (messageFinalWord msg)) := by
  have hlen : BitVec.ofNat 8 (msg.length % 256) = BitVec.ofNat 8 msg.length := BitVec.eq_of_toNat_eq (by simp)
  rw [State.finalQuad, State.finalWordOf, finalLength_foldl_blockDone_keyed, vs_foldl_blockDone, State.vs_keyed,
    absorbBlocks_eq_foldl, messageFinalWord, hlen]
  rfl

/-- Settles O54: the run of HASH's commands is that of INIT, its BLOCKs and its FINAL, whose completed effects are the
steps of the reference function. -/
theorem hashComputesSipHash : Obligations.HashComputesSipHash := by
  unfold Obligations.HashComputesSipHash
  intro s k0 k1 msg rest hr hs
  have hrun := run_init_blocks_final (k0 := k0) (k1 := k1) (ms := blockWords msg) (nb := msg.length % 8)
    (w := leWord (tailBytes msg)) (rest := .waitTag :: rest) hr (by omega) rfl
    (by rw [hs, hashScript, hashCommands_eq_blockWords, List.append_assoc]; rfl)
  rw [length_blockWords] at hrun
  obtain ⟨-, herr, herrcode, -, hsupplier⟩ :=
    foldl_blockDone_frame (blockWords msg) ((s.withSupplier (.waitTag :: rest)).keyed k0 k1) rfl
  refine ⟨_, hrun, rfl, rfl, ?tag, ?blen, herr, herrcode, hsupplier⟩
  case tag => rw [State.finalDone_tag, finalQuad_foldl_blockDone_keyed, sipHash24]
  case blen =>
    have hlength := finalLength_foldl_blockDone_keyed (s.withSupplier (.waitTag :: rest)) k0 k1 msg
    rw [State.finalDone_blen, hlength, BitVec.toNat_ofNat]

end Sys2Proof.Machine
end

section
/-! SUPPORT. What the invariant says in each state of the sequencer (10_state R26, R28, R30; log 7). -/

namespace Sys2Proof.Machine

variable {s : State}

theorem errorRecordOk_iff : s.errorRecordOk = true ↔ (s.err = true ↔ s.errcode ≠ .none) := by
  cases hc : s.errcode <;> simp [State.errorRecordOk, hc]

theorem inv_iff : s.Inv = true ↔ s.roundCountOk = true ∧ s.tagHidden = true ∧ s.errorRecordOk = true ∧
    s.lastblkOk = true ∧ s.unkeyedBlank = true := by
  simp only [State.Inv, Bool.and_eq_true, and_assoc]

theorem inv_iff_of_unkeyed (h : s.fsm = .unkeyed) :
    s.Inv = true ↔ s.rc = 0 ∧ s.tagreg = 0 ∧ s.errorRecordOk = true ∧ s.lastblk = false ∧
      s.vs = ⟨0, 0, 0, 0⟩ ∧ s.mreg = 0 ∧ s.blen = 0 := by
  simp [inv_iff, State.roundCountOk, State.tagHidden, State.lastblkOk, State.unkeyedBlank, h, and_assoc]

theorem inv_iff_of_ready (h : s.fsm = .ready) :
    s.Inv = true ↔ s.rc = 0 ∧ s.tagreg = 0 ∧ s.errorRecordOk = true ∧ s.lastblk = false := by
  simp [inv_iff, State.roundCountOk, State.tagHidden, State.lastblkOk, State.unkeyedBlank, h]

theorem inv_iff_of_comp (h : s.fsm = .comp) :
    s.Inv = true ↔ s.rc.toNat < 2 ∧ s.tagreg = 0 ∧ s.errorRecordOk = true := by
  simp [inv_iff, State.roundCountOk, State.tagHidden, State.lastblkOk, State.unkeyedBlank, h]

theorem inv_iff_of_fin (h : s.fsm = .fin) :
    s.Inv = true ↔ s.rc.toNat < 4 ∧ s.tagreg = 0 ∧ s.errorRecordOk = true ∧ s.lastblk = true := by
  simp [inv_iff, State.roundCountOk, State.tagHidden, State.lastblkOk, State.unkeyedBlank, h]

theorem inv_iff_of_done (h : s.fsm = .done) :
    s.Inv = true ↔ s.rc = 0 ∧ s.errorRecordOk = true ∧ s.lastblk = true := by
  simp [inv_iff, State.roundCountOk, State.tagHidden, State.lastblkOk, State.unkeyedBlank, h]

theorem errorRecordOk_of_inv (h : s.Inv = true) : s.errorRecordOk = true := by
  obtain ⟨-, -, herr, -, -⟩ := inv_iff.mp h
  exact herr

theorem tagreg_eq_zero_of_inv (h : s.Inv = true) (hf : s.fsm ≠ .done) : s.tagreg = 0 := by
  obtain ⟨-, htag, -, -, -⟩ := inv_iff.mp h
  simpa [State.tagHidden, hf] using htag

end Sys2Proof.Machine
end

section
/-! The invariant is kept by every edge, and so by every step (43_sequencer R171). -/

namespace Sys2Proof.Machine

variable {s : State}

@[simp] theorem inv_withSupplier (l : List Stimulus) : (s.withSupplier l).Inv = s.Inv := rfl

theorem inv_zeroized : s.zeroized.Inv = true := rfl

theorem inv_keyed (h : s.Inv = true) (k0 k1 : Word) : (s.keyed k0 k1).Inv = true := by
  have herr : s.errorRecordOk = true := errorRecordOk_of_inv h
  exact (inv_iff_of_ready rfl).mpr ⟨rfl, rfl, herr, rfl⟩

/-- Recording an error touches only the error record, which then names one (60_exceptions R201, R203). -/
theorem inv_raiseErr {code : ErrCode} (hcode : code ≠ .none) (h : s.Inv = true) : (s.raiseErr code).Inv = true := by
  have hold := errorRecordOk_iff.mp (errorRecordOk_of_inv h)
  have hnew : (s.raiseErr code).errorRecordOk = true := by
    rw [errorRecordOk_iff, State.raiseErr_err, State.raiseErr_errcode]
    split <;> simp_all
  obtain ⟨hrc, htag, -, hlast, hblank⟩ := inv_iff.mp h
  refine inv_iff.mpr ⟨?_, ?_, hnew, ?_, ?_⟩
  · simpa [State.roundCountOk] using hrc
  · simpa [State.tagHidden] using htag
  · simpa [State.lastblkOk] using hlast
  · simpa [State.unkeyedBlank] using hblank

theorem inv_takeWord (h : s.Inv = true) (hf : s.fsm = .ready) (w : Word) (len : BitVec 8) (last : Bool) :
    (s.takeWord w len last).Inv = true := by
  obtain ⟨-, htag, herr, -⟩ := (inv_iff_of_ready hf).mp h
  exact (inv_iff_of_comp rfl).mpr ⟨Nat.two_pos, htag, herr⟩

theorem exec_keeps_inv {i : Instr} {t : State} (h : s.Inv = true) (ht : exec i s = .next t) : t.Inv = true := by
  obtain ⟨-, rfl⟩ | ⟨k0, k1, -, rfl⟩ | ⟨-, rfl⟩ | ⟨m, -, -, rfl⟩ | ⟨m, -, hf, rfl⟩ | ⟨nb, w, -, -, rfl⟩ |
    ⟨nb, w, -, hf, rfl⟩ := exec_cases ht
  · exact h
  · exact inv_keyed h k0 k1
  · exact inv_zeroized
  · exact inv_raiseErr (by decide) h
  · exact inv_takeWord h hf _ _ _
  · exact inv_raiseErr (by decide) h
  · exact inv_takeWord h hf _ _ _

theorem accept_keeps_inv {c : Command} {t : State} (h : s.Inv = true) (ht : accept c s = .next t) : t.Inv = true := by
  obtain ⟨i, -, hexec⟩ | ⟨why, -, rfl⟩ := accept_cases ht
  · exact exec_keeps_inv h hexec
  · exact inv_raiseErr (by decide) h

/-- An edge inside a phase leaves rounds of the phase to do (43_sequencer R172, R173). -/
theorem midPhase_rc_lt {total : Nat} (htotal : total ≤ 4) (hrc : s.rc.toNat < total)
    (hne : s.rc.toNat + roundsNow s total ≠ total) : (s.midPhase (roundsNow s total)).rc.toNat < total := by
  have hle : roundsNow s total ≤ total - s.rc.toNat := Nat.min_le_right _ _
  simp only [State.midPhase_rc, BitVec.toNat_add, BitVec.toNat_ofNat]
  omega

theorem compressionEdge_keeps_inv {t : State} (h : s.Inv = true) (hf : s.fsm = .comp)
    (ht : compressionEdge s = .next t) : t.Inv = true := by
  obtain ⟨-, htag, herr⟩ := (inv_iff_of_comp hf).mp h
  obtain ⟨hrc, ⟨-, rfl⟩ | ⟨hne, rfl⟩⟩ := compressionEdge_cases ht
  · have herr' : (s.compressed (roundsNow s 2)).errorRecordOk = true := by
      simpa [State.errorRecordOk] using herr
    cases hlast : s.lastblk with
    | true => exact (inv_iff_of_fin (by simp [hlast])).mpr ⟨by simp, by simpa, herr', by simpa⟩
    | false => exact (inv_iff_of_ready (by simp [hlast])).mpr ⟨by simp, by simpa, herr', by simpa⟩
  · exact (inv_iff_of_comp (s := s.midPhase _) hf).mpr ⟨midPhase_rc_lt (by decide) hrc hne, htag, herr⟩

theorem finalizationEdge_keeps_inv {t : State} (h : s.Inv = true) (hf : s.fsm = .fin)
    (ht : finalizationEdge s = .next t) : t.Inv = true := by
  obtain ⟨-, htag, herr, hlast⟩ := (inv_iff_of_fin hf).mp h
  obtain ⟨hrc, ⟨-, rfl⟩ | ⟨hne, rfl⟩⟩ := finalizationEdge_cases ht
  · exact (inv_iff_of_done rfl).mpr ⟨rfl, herr, hlast⟩
  · exact (inv_iff_of_fin (s := s.midPhase _) hf).mpr ⟨midPhase_rc_lt (by decide) hrc hne, htag, herr, hlast⟩

theorem edge_keeps_inv {p : PortIn} {t : State} (h : s.Inv = true) (ht : edge p s = .next t) : t.Inv = true := by
  obtain ⟨-, rfl⟩ | ⟨-, hacc⟩ | ⟨-, -, hf, hround⟩ | ⟨-, -, hf, hround⟩ | ⟨-, -, -, rfl⟩ := edge_cases ht
  · exact inv_zeroized
  · exact accept_keeps_inv h hacc
  · exact compressionEdge_keeps_inv h hf hround
  · exact finalizationEdge_keeps_inv h hf hround
  · exact h

/-- Settles O42: a step is an edge after the script has moved on, which the invariant does not read, and each of the five
things an edge can do keeps the invariant. -/
theorem everyStepKeepsTheInvariant : Obligations.EveryStepKeepsTheInvariant := by
  unfold Obligations.EveryStepKeepsTheInvariant
  intro s t h ht
  exact edge_keeps_inv (s := s.withSupplier s.scriptAfter) h ht

end Sys2Proof.Machine
end

section
/-! SUPPORT. The decoder read backwards: the operands and the CTRL value of a command that decodes to an instruction
(30_encoding R70-R74). -/

namespace Sys2Proof

theorem withoutNb_eq_instr_iff {ctrl : BitVec 8} {i j : Instr} :
    Decoded.withoutNb ctrl i = .instr j ↔ ctrlNb ctrl = 0 ∧ j = i := by
  unfold Decoded.withoutNb
  split <;> simp_all [eq_comm]

/-- CTRL is its three fields (30_encoding R71). -/
theorem ctrl_eq_append_fields (ctrl : BitVec 8) : ctrl = ctrlRsv ctrl ++ ctrlNb ctrl ++ ctrlOp ctrl := by
  simp only [ctrlRsv, ctrlNb, ctrlOp]
  decide +revert

/-- The CTRL value of a command without reserved bits (30_encoding R74). -/
theorem ctrl_eq_of_fields {ctrl : BitVec 8} {nb op : BitVec 3} (hrsv : ctrlRsv ctrl = 0) (hnb : ctrlNb ctrl = nb)
    (hop : (ctrlOp ctrl).toNat = op.toNat) : ctrl = 0#2 ++ nb ++ op := by
  rw [ctrl_eq_append_fields ctrl, hrsv, hnb, BitVec.eq_of_toNat_eq hop]
  rfl

theorem finalControl_of_nb (nb : BitVec 3) : 0#2 ++ nb ++ 3#3 ∈ Machine.finalControls := by
  decide +revert

/-- Every command that decodes to an instruction (30_encoding R72-R74). -/
theorem decode_cases {c : Command} {i : Instr} (h : decode c = .instr i) :
    (i = .nop ∧ c.ctrl = 0x00) ∨
    (i = .init c.d0 c.d1 ∧ c.ctrl = 0x01) ∨
    (i = .block c.d0 ∧ c.ctrl = 0x02) ∨
    (i = .final (ctrlNb c.ctrl).toNat c.d0 ∧ c.ctrl ∈ Machine.finalControls) ∨
    (i = .clear ∧ c.ctrl = 0x04) := by
  unfold decode at h
  split at h
  · cases h
  next hrsv =>
    have hrsv : ctrlRsv c.ctrl = 0 := not_not.mp hrsv
    split at h
    case _ hop =>
      obtain ⟨hnb, rfl⟩ := withoutNb_eq_instr_iff.mp h
      exact .inl ⟨rfl, ctrl_eq_of_fields (op := 0) hrsv hnb hop⟩
    case _ hop =>
      obtain ⟨hnb, rfl⟩ := withoutNb_eq_instr_iff.mp h
      exact .inr (.inl ⟨rfl, ctrl_eq_of_fields (op := 1) hrsv hnb hop⟩)
    case _ hop =>
      obtain ⟨hnb, rfl⟩ := withoutNb_eq_instr_iff.mp h
      exact .inr (.inr (.inl ⟨rfl, ctrl_eq_of_fields (op := 2) hrsv hnb hop⟩))
    case _ hop =>
      cases h
      have hctrl := ctrl_eq_of_fields (op := 3) hrsv rfl hop
      exact .inr (.inr (.inr (.inl ⟨rfl, hctrl ▸ finalControl_of_nb _⟩)))
    case _ hop =>
      obtain ⟨hnb, rfl⟩ := withoutNb_eq_instr_iff.mp h
      exact .inr (.inr (.inr (.inr ⟨rfl, ctrl_eq_of_fields (op := 4) hrsv hnb hop⟩)))
    case _ => cases h

section
variable {c : Command}

theorem ctrl_of_decode_init {k0 k1 : Word} (h : decode c = .instr (.init k0 k1)) : c.ctrl = 0x01 := by
  have hcases := decode_cases h
  simp_all

theorem ctrl_of_decode_block {m : Word} (h : decode c = .instr (.block m)) : c.ctrl = 0x02 := by
  have hcases := decode_cases h
  simp_all

theorem ctrl_of_decode_final {nb : Nat} {w : Word} (h : decode c = .instr (.final nb w)) :
    c.ctrl ∈ Machine.finalControls := by
  have hcases := decode_cases h
  simp_all

theorem ctrl_of_decode_clear (h : decode c = .instr .clear) : c.ctrl = 0x04 := by
  have hcases := decode_cases h
  simp_all
end

end Sys2Proof
end

section
/-! The edges that write the working state (10_state R21). -/

namespace Sys2Proof.Machine

variable {s t : State}

/-- The commands whose accept edge writes the working state (10_state R21). -/
theorem accept_changes_vs {c : Command} (h : accept c s = .next t) (hvs : t.vs ≠ s.vs) :
    c.ctrl = 0x01 ∨ c.ctrl = 0x04 ∨ (s.fsm = .ready ∧ (c.ctrl = 0x02 ∨ c.ctrl ∈ finalControls)) := by
  obtain ⟨i, hdec, hexec⟩ | ⟨why, -, rfl⟩ := accept_cases h
  · obtain ⟨-, rfl⟩ | ⟨k0, k1, rfl, -⟩ | ⟨rfl, -⟩ | ⟨m, -, -, rfl⟩ | ⟨m, rfl, hf, -⟩ | ⟨nb, w, -, -, rfl⟩ |
      ⟨nb, w, rfl, hf, -⟩ := exec_cases hexec
    · exact absurd rfl hvs
    · exact .inl (ctrl_of_decode_init hdec)
    · exact .inr (.inl (ctrl_of_decode_clear hdec))
    · exact absurd (State.vs_raiseErr s .seq) hvs
    · exact .inr (.inr ⟨hf, .inl (ctrl_of_decode_block hdec)⟩)
    · exact absurd (State.vs_raiseErr s .seq) hvs
    · exact .inr (.inr ⟨hf, .inr (ctrl_of_decode_final hdec)⟩)
  · exact absurd (State.vs_raiseErr s .illegal) hvs

/-- Settles O44: of the five things an edge can do, a hold edge keeps the working state, and an accept edge that changes it
accepts one of the commands named. -/
theorem onlyTheseEdgesWriteTheWorkingState : Obligations.OnlyTheseEdgesWriteTheWorkingState := by
  unfold Obligations.OnlyTheseEdgesWriteTheWorkingState
  intro s p t h hvs
  obtain ⟨hrst, -⟩ | ⟨haccepts, haccept⟩ | ⟨-, -, hcomp, -⟩ | ⟨-, -, hfin, -⟩ | ⟨-, -, -, rfl⟩ := edge_cases h
  · exact .inl hrst
  · obtain hinit | hclear | ⟨hready, hmessage⟩ := accept_changes_vs haccept hvs
    · exact .inr (.inl ⟨haccepts, .inl hinit⟩)
    · exact .inr (.inl ⟨haccepts, .inr hclear⟩)
    · exact .inr (.inr (.inl ⟨haccepts, hready, hmessage⟩))
  · exact .inr (.inr (.inr (.inl hcomp)))
  · exact .inr (.inr (.inr (.inr hfin)))
  · exact absurd rfl hvs

end Sys2Proof.Machine
end

section
/-! SUPPORT. An edge with the secret registers and the port's data words blanked: what is left of a next state when its
secrets are blanked does not depend on them (10_state R21, 60_exceptions R208). -/

namespace Sys2Proof

/-- The command with both data words 0. -/
def Command.withoutData (c : Command) : Command := { c with d0 := 0, d1 := 0 }

/-- The instruction with its data operands 0; FINAL's byte count is in CTRL and stays (30_encoding R71). -/
def Instr.withoutData : Instr → Instr
  | .nop => .nop
  | .init _ _ => .init 0 0
  | .block _ => .block 0
  | .final nb _ => .final nb 0
  | .clear => .clear

/-- What a command decodes to, its data operands 0. -/
def Decoded.withoutData : Decoded → Decoded
  | .instr i => .instr i.withoutData
  | .illegal why => .illegal why

theorem withoutData_withoutNb (ctrl : BitVec 8) (i : Instr) :
    (Decoded.withoutNb ctrl i).withoutData = .withoutNb ctrl i.withoutData := by
  unfold Decoded.withoutNb
  split <;> rfl

theorem ctrl_withoutData (c : Command) : c.withoutData.ctrl = c.ctrl := rfl

/-- Only the data operands depend on the data words (30_encoding R72). -/
theorem decode_withoutData (c : Command) : decode c.withoutData = (decode c).withoutData := by
  unfold decode
  rw [ctrl_withoutData]
  by_cases hrsv : ctrlRsv c.ctrl ≠ 0
  · rw [if_pos hrsv, if_pos hrsv]
    rfl
  · rw [if_neg hrsv, if_neg hrsv]
    generalize (ctrlOp c.ctrl).toNat = op
    match op with
    | 0 => exact (withoutData_withoutNb _ .nop).symm
    | 1 => exact (withoutData_withoutNb _ (.init c.d0 c.d1)).symm
    | 2 => exact (withoutData_withoutNb _ (.block c.d0)).symm
    | 3 => rfl
    | 4 => exact (withoutData_withoutNb _ .clear).symm
    | _ + 5 => rfl

end Sys2Proof

namespace Sys2Proof.Machine

variable {s t : State}

/-- The port values with the command's data words 0. -/
def PortIn.withoutData (p : PortIn) : PortIn := { p with cmd := p.cmd.withoutData }

theorem withoutSecrets_raiseErr (s : State) (code : ErrCode) :
    (s.raiseErr code).withoutSecrets = (s.withoutSecrets.raiseErr code).withoutSecrets := by
  unfold State.raiseErr
  split <;> simp_all [State.withoutSecrets]

theorem withoutSecrets_compressed (s : State) (k : Nat) :
    (s.compressed k).withoutSecrets = (s.withoutSecrets.compressed k).withoutSecrets := by
  unfold State.compressed
  cases hl : s.lastblk <;> simp [hl, State.withoutSecrets, State.withVs]

/-- A legal command shows nothing of the secrets and of its data operands. -/
theorem exec_withoutSecrets {i : Instr} (h : exec i s = .next t) :
    ∃ u, exec i.withoutData s.withoutSecrets = .next u ∧ t.withoutSecrets = u.withoutSecrets := by
  obtain ⟨rfl, rfl⟩ | ⟨k0, k1, rfl, rfl⟩ | ⟨rfl, rfl⟩ | ⟨m, rfl, hf, rfl⟩ | ⟨m, rfl, hf, rfl⟩ | ⟨nb, w, rfl, hf, rfl⟩ |
    ⟨nb, w, rfl, hf, rfl⟩ := exec_cases h
  · exact ⟨_, rfl, rfl⟩
  · exact ⟨_, rfl, rfl⟩
  · exact ⟨_, rfl, rfl⟩
  · exact ⟨_, if_pos hf, withoutSecrets_raiseErr s .seq⟩
  · exact ⟨_, if_neg (not_not.mpr hf), rfl⟩
  · exact ⟨_, if_pos hf, withoutSecrets_raiseErr s .seq⟩
  · exact ⟨_, if_neg (not_not.mpr hf), rfl⟩

theorem accept_withoutSecrets {c : Command} (h : accept c s = .next t) :
    ∃ u, accept c.withoutData s.withoutSecrets = .next u ∧ t.withoutSecrets = u.withoutSecrets := by
  unfold accept
  rw [decode_withoutData]
  obtain ⟨i, hdec, hexec⟩ | ⟨why, hdec, rfl⟩ := accept_cases h
  · rw [hdec]
    exact exec_withoutSecrets hexec
  · rw [hdec]
    exact ⟨_, rfl, withoutSecrets_raiseErr s .illegal⟩

theorem compressionEdge_withoutSecrets (h : compressionEdge s = .next t) :
    ∃ u, compressionEdge s.withoutSecrets = .next u ∧ t.withoutSecrets = u.withoutSecrets := by
  obtain ⟨hrc, ⟨heq, rfl⟩ | ⟨hne, rfl⟩⟩ := compressionEdge_cases h
  · exact ⟨_, (if_neg (Nat.not_le.mpr hrc)).trans (if_pos heq), withoutSecrets_compressed s _⟩
  · exact ⟨_, (if_neg (Nat.not_le.mpr hrc)).trans (if_neg hne), rfl⟩

/-- The last finalization edge alone shows the secrets, in `tagreg` (10_state R21). -/
theorem finalizationEdge_withoutSecrets (h : finalizationEdge s = .next t) :
    ∃ u, finalizationEdge s.withoutSecrets = .next u ∧
      t.withoutSecrets = { u.withoutSecrets with tagreg := t.tagreg } ∧ (t.fsm ≠ .done → t.tagreg = u.tagreg) := by
  obtain ⟨hrc, ⟨heq, rfl⟩ | ⟨hne, rfl⟩⟩ := finalizationEdge_cases h
  · exact ⟨_, (if_neg (Nat.not_le.mpr hrc)).trans (if_pos heq), rfl, fun hdone => absurd rfl hdone⟩
  · exact ⟨_, (if_neg (Nat.not_le.mpr hrc)).trans (if_neg hne), rfl, fun _ => rfl⟩

theorem sequencerEdge_of_comp (h : s.fsm = .comp) : sequencerEdge s = compressionEdge s := by
  rw [sequencerEdge, h]

theorem sequencerEdge_of_fin (h : s.fsm = .fin) : sequencerEdge s = finalizationEdge s := by
  rw [sequencerEdge, h]

theorem sequencerEdge_of_accepts (h : s.fsm.accepts = true) : sequencerEdge s = .next s := by
  unfold sequencerEdge
  cases hf : s.fsm with
  | unkeyed | ready | done => rfl
  | comp | fin => rw [hf] at h; cases h

/-- What an edge accepts does not depend on the secrets or the data words. -/
theorem edge_withoutSecrets_of_noAccept {p : PortIn} (hr : p.rst = false) (ha : s.acceptsAt p = false) :
    edge p.withoutData s.withoutSecrets = sequencerEdge s.withoutSecrets :=
  edge_of_noAccept hr ha

theorem eq_withTagreg_of_withoutSecrets_eq {u : State} (h : t.withoutSecrets = u.withoutSecrets) :
    t.withoutSecrets = { u.withoutSecrets with tagreg := t.tagreg } ∧ t.tagreg = u.tagreg := by
  have htag : t.tagreg = u.tagreg := (congrArg State.tagreg h :)
  exact ⟨by rw [h, htag]; rfl, htag⟩

end Sys2Proof.Machine
end

section
/-! The secret registers reach the ports only through the tag of a completed hash (10_state R21, 60_exceptions R208). -/

namespace Sys2Proof.Machine

variable {s t : State}

/-- Every edge, blanked, is the edge of the blanked state under the blanked port, but for the tag when it completes a
hash. -/
theorem edge_withoutSecrets {p : PortIn} (h : edge p s = .next t) :
    ∃ u, edge p.withoutData s.withoutSecrets = .next u ∧
      t.withoutSecrets = { u.withoutSecrets with tagreg := t.tagreg } ∧
      (¬ (s.fsm = .fin ∧ t.fsm = .done) → t.tagreg = u.tagreg) := by
  obtain ⟨hr, rfl⟩ | ⟨ha, hacc⟩ | ⟨hr, ha, hf, hround⟩ | ⟨hr, ha, hf, hround⟩ | ⟨hr, ha, hf, rfl⟩ := edge_cases h
  · exact ⟨_, edge_of_reset hr, rfl, fun _ => rfl⟩
  · obtain ⟨u, hu, heq⟩ := accept_withoutSecrets hacc
    obtain ⟨hrest, htag⟩ := eq_withTagreg_of_withoutSecrets_eq heq
    have hedge := edge_of_accept (p := p.withoutData) (s := s.withoutSecrets) ha
    exact ⟨u, hedge.trans hu, hrest, fun _ => htag⟩
  · obtain ⟨u, hu, heq⟩ := compressionEdge_withoutSecrets hround
    obtain ⟨hrest, htag⟩ := eq_withTagreg_of_withoutSecrets_eq heq
    have hedge := (edge_withoutSecrets_of_noAccept hr ha).trans (sequencerEdge_of_comp hf)
    exact ⟨u, hedge.trans hu, hrest, fun _ => htag⟩
  · obtain ⟨u, hu, hrest, htag⟩ := finalizationEdge_withoutSecrets hround
    have hedge := (edge_withoutSecrets_of_noAccept hr ha).trans (sequencerEdge_of_fin hf)
    exact ⟨u, hedge.trans hu, hrest, fun hnot => htag fun hdone => hnot ⟨hf, hdone⟩⟩
  · exact ⟨_, (edge_withoutSecrets_of_noAccept hr ha).trans (sequencerEdge_of_accepts hf), rfl, fun _ => rfl⟩

/-- Settles O46: both edges blank to the same edge, since the states and the ports blank alike; so the next states blank
alike too, but for the tag of a completed hash. -/
theorem secretsLeaveOnlyThroughTheTag : Obligations.SecretsLeaveOnlyThroughTheTag := by
  unfold Obligations.SecretsLeaveOnlyThroughTheTag
  refine ⟨?_, fun s rst => ⟨rfl, rfl, rfl, rfl⟩⟩
  intro s₁ s₂ t₁ t₂ p₁ p₂ hs hrst hvalid hctrl h₁ h₂
  have hp : p₁.withoutData = p₂.withoutData := by
    simp only [PortIn.withoutData, Command.withoutData, hrst, hvalid, hctrl]
  obtain ⟨u₁, hu₁, hrest₁, htag₁⟩ := edge_withoutSecrets h₁
  obtain ⟨u₂, hu₂, hrest₂, htag₂⟩ := edge_withoutSecrets h₂
  obtain rfl : u₁ = u₂ := by
    rw [hs, hp, hu₂] at hu₁
    exact (Host.Outcome.next.inj hu₁).symm
  refine ⟨by rw [hrest₁, hrest₂], fun hnot => ?_⟩
  have hfsm : s₁.fsm = s₂.fsm := (congrArg State.fsm hs :)
  have hfsm' : t₁.fsm = t₂.fsm := ((congrArg State.fsm hrest₁).trans (congrArg State.fsm hrest₂).symm :)
  rw [hrest₁, hrest₂, htag₁ hnot, htag₂ (hfsm ▸ hfsm' ▸ hnot)]

end Sys2Proof.Machine
end

section
/-! SUPPORT. The outputs, field by field (10_state R36-R39). -/

namespace Sys2Proof.Machine

variable {s : State}

theorem Fsm.accepts_iff (f : Fsm) : f.accepts = true ↔ f = .unkeyed ∨ f = .ready ∨ f = .done := by
  cases f <;> decide

theorem busy_eq_not_cmdReady (s : State) : s.busy = !s.cmdReady false := by
  cases hf : s.fsm <;> simp [State.busy, State.cmdReady, Fsm.accepts, hf]

theorem cmdReady_eq_false_of_busy (h : s.fsm = .comp ∨ s.fsm = .fin) (rst : Bool) : s.cmdReady rst = false := by
  obtain hf | hf := h <;> simp [State.cmdReady, Fsm.accepts, hf]

theorem status_zeroized (s : State) : s.zeroized.status = 0x0000 :=
  calc s.zeroized.status
    _ = State.reset.status := rfl
    _ = 0x0000 := by decide

/-- STATUS bit by bit (10_state R39). -/
theorem status_getLsbD (s : State) (i : Nat) :
    s.status.getLsbD i =
      if i < 3 then s.fsm.code.getLsbD i
      else if i = 3 then s.busy
      else if i = 4 then s.tagValid
      else if i = 5 then s.err
      else if i < 8 then s.errcode.code.getLsbD (i - 6)
      else s.blen.getLsbD (i - 8) := by
  unfold State.status
  -- the width as the sum of the fields' widths, the form the append lemmas are stated for
  change BitVec.getLsbD (w := 8 + 2 + 1 + 1 + 1 + 3) _ i = _
  simp only [BitVec.getLsbD_append, BitVec.getLsbD_ofBool]
  grind

section
variable (s : State)

theorem status_fsm : s.status.extractLsb' 0 3 = s.fsm.code := by
  ext i hi
  simp [status_getLsbD, hi]

theorem status_busy : s.status.getLsbD 3 = s.busy := status_getLsbD s 3

theorem status_tagValid : s.status.getLsbD 4 = s.tagValid := status_getLsbD s 4

theorem status_err : s.status.getLsbD 5 = s.err := status_getLsbD s 5

theorem status_errcode : s.status.extractLsb' 6 2 = s.errcode.code := by
  ext i hi
  rw [BitVec.getElem_extractLsb', status_getLsbD, if_neg (by omega), if_neg (by omega), if_neg (by omega),
    if_neg (by omega), if_pos (by omega), Nat.add_sub_cancel_left, BitVec.getLsbD_eq_getElem]

theorem status_blen : s.status.extractLsb' 8 8 = s.blen := by
  ext i hi
  rw [BitVec.getElem_extractLsb', status_getLsbD, if_neg (by omega), if_neg (by omega), if_neg (by omega),
    if_neg (by omega), if_neg (by omega), Nat.add_sub_cancel_left, BitVec.getLsbD_eq_getElem]
end

theorem append_low_fields (x : BitVec 11) (a b : BitVec 1) (c : BitVec 3) : x ++ a ++ b ++ c = x ++ (a ++ b ++ c) :=
  calc x ++ a ++ b ++ c
    _ = x ++ (a ++ b) ++ c := congrArg (· ++ c) BitVec.append_assoc
    _ = x ++ (a ++ b ++ c) := BitVec.append_assoc

/-- STATUS with TAG_VALID, BUSY and FSM, which depend on `fsm` alone, as one field. -/
theorem status_eq_append_low (s : State) :
    s.status = s.blen ++ s.errcode.code ++ BitVec.ofBool s.err ++
      (BitVec.ofBool s.tagValid ++ BitVec.ofBool s.busy ++ s.fsm.code) :=
  append_low_fields _ _ _ _

theorem status_of_comp (h : s.fsm = .comp) :
    s.status = s.blen ++ s.errcode.code ++ BitVec.ofBool s.err ++ 0b01010#5 := by
  rw [status_eq_append_low, State.tagValid, State.busy, h]
  rfl

theorem status_of_fin (h : s.fsm = .fin) :
    s.status = s.blen ++ s.errcode.code ++ BitVec.ofBool s.err ++ 0b01011#5 := by
  rw [status_eq_append_low, State.tagValid, State.busy, h]
  rfl

end Sys2Proof.Machine
end

section
/-! The outputs after reset and CLEAR, in every state and while busy, and the ports a script drives (10_state R35-R39, R43;
43_sequencer R177; 30_encoding R76). -/

namespace Sys2Proof.Machine

/-- Settles O21: each of the three states is a zeroized one. -/
theorem resetAndClearValues : Obligations.ResetAndClearValues := by
  unfold Obligations.ResetAndClearValues
  intro s p t h
  obtain ⟨u, rfl⟩ : ∃ u : State, t = u.zeroized := by
    obtain ⟨hrst, hedge⟩ | hclear | rfl := h
    · rw [edge_of_reset hrst] at hedge
      exact ⟨s, (Host.Outcome.next.inj hedge).symm⟩
    · exact ⟨s, (Host.Outcome.next.inj hclear).symm⟩
    · exact ⟨.reset, rfl⟩
  exact ⟨rfl, rfl, rfl, rfl, rfl, rfl, rfl, rfl, rfl, rfl, rfl, rfl, rfl, rfl, rfl, status_zeroized u⟩

/-- Settles O22, field by field. -/
theorem statusFields : Obligations.StatusFields := by
  unfold Obligations.StatusFields
  intro s
  refine ⟨status_fsm s, ?busy, status_tagValid s, status_err s, status_errcode s, status_blen s, ?notReady, by decide,
    by decide⟩
  case busy => rw [status_busy, State.busy, Bool.decide_or]
  case notReady => rw [status_busy, busy_eq_not_cmdReady]

/-- Settles O23: `tag` is 0 while not valid because the invariant hides `tagreg` outside DONE. -/
theorem readyAndTagOutputs : Obligations.ReadyAndTagOutputs := by
  unfold Obligations.ReadyAndTagOutputs
  intro s rst
  refine ⟨?ready, decide_eq_true_iff, rfl, fun hinv hvalid => ?tag⟩
  case ready => rw [← Fsm.accepts_iff, State.cmdReady, Bool.and_eq_true, Bool.not_eq_true']
  case tag => exact tagreg_eq_zero_of_inv hinv (of_decide_eq_false hvalid)

/-- Settles O24: a busy state is not DONE, so it accepts nothing, and the invariant hides its `tagreg`. -/
theorem portsWhileBusy : Obligations.PortsWhileBusy := by
  unfold Obligations.PortsWhileBusy
  intro s rst hinv
  refine ⟨status_of_comp, status_of_fin, fun hbusy => ?_⟩
  have hdone : s.fsm ≠ .done := by
    obtain hf | hf := hbusy <;> simp [hf]
  exact ⟨cmdReady_eq_false_of_busy hbusy rst, decide_eq_false hdone, tagreg_eq_zero_of_inv hinv hdone⟩

/-- Settles O51: an edge with `rst = 0` that accepts nothing is the sequencer's, which does not read the port. -/
theorem scriptDrivesThePorts : Obligations.ScriptDrivesThePorts := by
  unfold Obligations.ScriptDrivesThePorts
  intro s
  refine ⟨fun p rest h => step_of_edge h, fun c h => ?_⟩
  rw [step_of_nil h, edge_of_noAccept rfl rfl, edge_of_noAccept rfl rfl]

end Sys2Proof.Machine
end

section
/-! SUPPORT. The bytes of a word, and of the words that packing and masking make (00_scope R8, R9; 20_memory R53). -/

namespace Sys2Proof.Machine

theorem byteOf_getLsbD {j : Nat} (hj : j < 8) (w : Word) (i : Nat) :
    (byteOf w i).getLsbD j = w.getLsbD (8 * i + j) := by
  simp [byteOf, hj]

/-- A word is its eight bytes (00_scope R8). -/
theorem eq_of_byteOf_eq {w w' : Word} (h : ∀ i, i < 8 → byteOf w i = byteOf w' i) : w = w' := by
  refine BitVec.eq_of_getLsbD_eq fun k hk => ?_
  have hbit : k % 8 < 8 := Nat.mod_lt k (by decide)
  rw [← Nat.div_add_mod k 8, ← byteOf_getLsbD hbit, ← byteOf_getLsbD hbit, h (k / 8) (by omega)]

@[simp] theorem byteOf_zero (i : Nat) : byteOf 0 i = 0 := BitVec.extractLsb'_zero

@[simp] theorem byteOf_or (w w' : Word) (i : Nat) : byteOf (w ||| w') i = byteOf w i ||| byteOf w' i :=
  BitVec.extractLsb'_or

@[simp] theorem byteOf_and (w w' : Word) (i : Nat) : byteOf (w &&& w') i = byteOf w i &&& byteOf w' i :=
  BitVec.extractLsb'_and

/-- A byte shifted into lane `i` is byte `i` of the word, and every other byte is 0 (20_memory R53). -/
theorem byteOf_zeroExtend_shiftLeft {j : Nat} (hj : j < 8) (b : Byte) (i : Nat) :
    byteOf (b.zeroExtend 64 <<< (8 * i)) j = if j = i then b else 0 := by
  refine BitVec.eq_of_getLsbD_eq fun k hk => ?_
  rw [byteOf_getLsbD hk, BitVec.getLsbD_shiftLeft, BitVec.getLsbD_setWidth]
  obtain hlt | rfl | hgt := Nat.lt_trichotomy j i
  · have hbelow : 8 * j + k < 8 * i := by omega
    simp [hbelow, hlt.ne]
  · have hin : 8 * j + k < 64 := by omega
    simp [hin, show k < 64 by omega]
  · have hbeyond : b.getLsbD (8 * j + k - 8 * i) = false := BitVec.getLsbD_of_ge _ _ (by omega)
    simp [hbeyond, hgt.ne']

theorem maskBytes_eq_ofNat (n : Nat) : maskBytes n = BitVec.ofNat 64 (2 ^ (8 * n) - 1) := by
  rw [maskBytes, Nat.one_shiftLeft]
  exact BitVec.ofNat_sub_ofNat_of_le _ _ (by decide) Nat.one_le_two_pow

/-- The low `n` bytes of the mask are all ones, the others 0 (00_scope R9). -/
theorem byteOf_maskBytes {i : Nat} (hi : i < 8) (n : Nat) :
    byteOf (maskBytes n) i = if i < n then BitVec.allOnes 8 else 0 := by
  refine BitVec.eq_of_getLsbD_eq fun k hk => ?_
  rw [byteOf_getLsbD hk, maskBytes_eq_ofNat, BitVec.getLsbD_ofNat, Nat.testBit_two_pow_sub_one]
  split
  · rw [BitVec.getLsbD_allOnes]
    simp [hk, show 8 * i + k < 64 by omega, show 8 * i + k < 8 * n by omega]
  · simp [show ¬ 8 * i + k < 8 * n by omega]

theorem byteOf_and_maskBytes {i : Nat} (hi : i < 8) (n : Nat) (w : Word) :
    byteOf (w &&& maskBytes n) i = if i < n then byteOf w i else 0 := by
  rw [byteOf_and, byteOf_maskBytes hi]
  split
  · exact BitVec.and_allOnes
  · exact BitVec.and_zero

/-- The final word takes only the low `nb` bytes of its operand (42_message_commands R144). -/
theorem finalWord_congr {nb : Nat} {w w' : Word} (h : ∀ i, i < nb → byteOf w i = byteOf w' i) (L : BitVec 8) :
    finalWord L nb w = finalWord L nb w' := by
  have hmask : w &&& maskBytes nb = w' &&& maskBytes nb := by
    refine eq_of_byteOf_eq fun i hi => ?_
    rw [byteOf_and_maskBytes hi, byteOf_and_maskBytes hi]
    split
    next hlow => exact h i hlow
    next => rfl
  rw [finalWord, finalWord, hmask]

/-- The packing loop leaves the lanes before its index as they are (20_memory R53). -/
theorem byteOf_leWordFrom_of_lt {i j : Nat} (hj : j < 8) (hji : j < i) (w : Word) (bytes : List Byte) :
    byteOf (leWordFrom i w bytes) j = byteOf w j := by
  induction bytes generalizing i w with
  | nil => rfl
  | cons b bs ih =>
    rw [leWordFrom, ih (Nat.lt_succ_of_lt hji), byteOf_or, byteOf_zeroExtend_shiftLeft hj, if_neg hji.ne]
    exact BitVec.or_zero

/-- The packing loop puts byte `j` of what is left into lane `i + j` (20_memory R53). -/
theorem byteOf_leWordFrom_add {i j : Nat} (hij : i + j < 8) (w : Word) (bytes : List Byte) :
    byteOf (leWordFrom i w bytes) (i + j) = byteOf w (i + j) ||| bytes.getD j 0 := by
  induction bytes generalizing i j w with
  | nil => exact BitVec.or_zero.symm
  | cons b bs ih =>
    rw [leWordFrom]
    cases j with
    | zero =>
      have hi : i < 8 := hij
      change byteOf _ i = byteOf w i ||| b
      rw [byteOf_leWordFrom_of_lt hi (Nat.lt_succ_self i), byteOf_or, byteOf_zeroExtend_shiftLeft hi, if_pos rfl]
    | succ j =>
      have hstep : i + (j + 1) = i + 1 + j := by omega
      have hne : i + 1 + j ≠ i := by omega
      rw [hstep] at hij ⊢
      rw [ih hij, byteOf_or, byteOf_zeroExtend_shiftLeft hij, if_neg hne, List.getD_cons_succ]
      exact congrArg (· ||| _) BitVec.or_zero

end Sys2Proof.Machine
end

section
/-! SUPPORT. What the decoder reads of a command's data words (20_memory R57, 30_encoding R72, R75). -/

namespace Sys2Proof

variable {c d : Command}

/-- Only INIT reads D1 (20_memory R57). -/
theorem decode_eq_of_d0_eq (hctrl : c.ctrl = d.ctrl) (hinit : c.ctrl ≠ 0x01) (hd0 : c.d0 = d.d0) :
    decode c = decode d := by
  unfold decode
  rw [← hctrl, ← hd0]
  split
  · rfl
  next hrsv =>
    split
    case h_2 hop =>
      have hnb : ctrlNb c.ctrl ≠ 0 := fun hnb =>
        hinit (ctrl_eq_of_fields (op := 1) (not_not.mp hrsv) hnb hop)
      rw [Decoded.withoutNb, Decoded.withoutNb, if_neg hnb, if_neg hnb]
    all_goals rfl

/-- The CTRL values of INIT, BLOCK and FINAL are legal and neither NOP's nor CLEAR's (30_encoding R73, R74). -/
theorem not_unused_of_operand_control {ctrl : BitVec 8}
    (h : ctrl = 0x01 ∨ ctrl = 0x02 ∨ ctrl ∈ Machine.finalControls) :
    ¬ (ctrl = 0x00 ∨ ctrl = 0x04 ∨ ctrl ∉ Machine.legalControls) := by
  decide +revert

/-- NOP, CLEAR and illegal commands read neither data word (20_memory R57, 93 I8). -/
theorem decode_eq_withoutData (h : c.ctrl = 0x00 ∨ c.ctrl = 0x04 ∨ c.ctrl ∉ Machine.legalControls) :
    decode c = decode c.withoutData := by
  rw [decode_withoutData]
  cases hdec : decode c with
  | illegal why => rfl
  | instr i =>
    obtain ⟨rfl, -⟩ | ⟨-, hctrl⟩ | ⟨-, hctrl⟩ | ⟨-, hctrl⟩ | ⟨rfl, -⟩ := decode_cases hdec
    · rfl
    · exact absurd h (not_unused_of_operand_control (.inl hctrl))
    · exact absurd h (not_unused_of_operand_control (.inr (.inl hctrl)))
    · exact absurd h (not_unused_of_operand_control (.inr (.inr hctrl)))
    · rfl

theorem ctrl_encode_final_toNat {nb : Nat} (hnb : nb < 8) (w : Word) :
    (encode (.final nb w)).ctrl.toNat = 3 + 8 * nb := by
  simp only [encode]
  decide +revert

/-- A command with FINAL's CTRL value for `nb` bytes is that FINAL, whatever its D1 (30_encoding R72). -/
theorem decode_of_final_ctrl {nb : Nat} (hnb : nb ≤ 7) (hctrl : c.ctrl.toNat = 3 + 8 * nb) :
    decode c = .instr (.final nb c.d0) := by
  have hsame : c.ctrl = (encode (.final nb c.d0)).ctrl :=
    BitVec.eq_of_toNat_eq (by rw [hctrl, ctrl_encode_final_toNat (by omega)])
  have hinit : c.ctrl ≠ 0x01 := fun h => by
    have hone : 1 = 3 + 8 * nb := (congrArg BitVec.toNat h).symm.trans hctrl
    omega
  have hlegal : (Instr.final nb c.d0).wellFormed = true := decide_eq_true hnb
  rw [decode_eq_of_d0_eq hsame hinit rfl, Machine.decode_encode hlegal]

end Sys2Proof
end

section
/-! Packing is little-endian, and the data a command does not use changes nothing (20_memory R52, R53, R57;
42_message_commands R153). -/

namespace Sys2Proof.Machine

theorem accept_eq_of_decode_eq {c d : Command} (h : decode c = decode d) (s : State) : accept c s = accept d s := by
  rw [accept, accept, h]

/-- FINAL uses only the low `nb` bytes of its operand (42_message_commands R153). -/
theorem exec_final_congr {nb : Nat} {w w' : Word} (h : ∀ i, i < nb → byteOf w i = byteOf w' i) (s : State) :
    exec (.final nb w) s = exec (.final nb w') s := by
  simp only [exec, execFinal, finalWord_congr h]

/-- Settles O30: the packing loop from lane 0 on, into the word 0. -/
theorem packingIsLittleEndian : Obligations.PackingIsLittleEndian := by
  unfold Obligations.PackingIsLittleEndian
  intro bytes i _ hi
  have hlane := byteOf_leWordFrom_add (i := 0) (by omega : 0 + i < 8) 0 bytes
  rw [Nat.zero_add, byteOf_zero] at hlane
  exact hlane.trans BitVec.zero_or

/-- Settles O11: the two commands decode alike, since the decoder reads D1 for INIT alone and no data word for the
others named. -/
theorem unusedDataWordsDoNotMatter : Obligations.UnusedDataWordsDoNotMatter := by
  unfold Obligations.UnusedDataWordsDoNotMatter
  intro s c d hctrl
  refine ⟨fun hinit hd0 => ?d0Equal, fun hunused => ?noData⟩
  case d0Equal => exact accept_eq_of_decode_eq (decode_eq_of_d0_eq hctrl hinit hd0) s
  case noData =>
    have hblank : c.withoutData = d.withoutData := by rw [Command.withoutData, Command.withoutData, hctrl]
    have hdecode : decode c = decode d := by
      rw [decode_eq_withoutData hunused, hblank, ← decode_eq_withoutData (hctrl ▸ hunused)]
    exact accept_eq_of_decode_eq hdecode s

/-- Settles O10: BLOCKs decode alike, and FINALs mask the lanes in which their operands differ. -/
theorem ignoredLanesDoNotMatter : Obligations.IgnoredLanesDoNotMatter := by
  unfold Obligations.IgnoredLanesDoNotMatter
  intro s c d hctrl
  refine ⟨fun hblock hd0 => ?block, fun nb hnb hfinal hlanes => ?final⟩
  case block =>
    have hinit : c.ctrl ≠ 0x01 := by rw [hblock]; decide
    exact accept_eq_of_decode_eq (decode_eq_of_d0_eq hctrl hinit hd0) s
  case final =>
    rw [accept, accept, decode_of_final_ctrl hnb hfinal, decode_of_final_ctrl hnb (hctrl ▸ hfinal)]
    exact exec_final_congr hlanes s

end Sys2Proof.Machine
end

section
/-! SUPPORT. The decoder read forwards: a command with one of the listed CTRL values decodes to that command's instruction
(30_encoding R72-R75). -/

namespace Sys2Proof

section
variable {c : Command}

theorem decode_of_nop_ctrl (h : c.ctrl = 0x00) : decode c = .instr .nop := by
  have hblank : c.withoutData = encode .nop := by rw [Command.withoutData, h, encode]
  rw [decode_eq_withoutData (.inl h), hblank, Machine.decode_encode rfl]

theorem decode_of_init_ctrl (h : c.ctrl = 0x01) : decode c = .instr (.init c.d0 c.d1) := by
  have hwhole : c = encode (.init c.d0 c.d1) := by rw [encode, ← h]
  rw [← Machine.decode_encode (i := .init c.d0 c.d1) rfl, ← hwhole]

theorem decode_of_block_ctrl (h : c.ctrl = 0x02) : decode c = .instr (.block c.d0) := by
  have hinit : c.ctrl ≠ 0x01 := by rw [h]; decide
  rw [decode_eq_of_d0_eq (d := encode (.block c.d0)) h hinit rfl, Machine.decode_encode rfl]

theorem decode_of_clear_ctrl (h : c.ctrl = 0x04) : decode c = .instr .clear := by
  have hblank : c.withoutData = encode .clear := by rw [Command.withoutData, h, encode]
  rw [decode_eq_withoutData (.inr (.inl h)), hblank, Machine.decode_encode rfl]
end

/-- A FINAL's CTRL value is 3 and eight times its byte count (30_encoding R73). -/
theorem toNat_of_mem_finalControls {ctrl : BitVec 8} (h : ctrl ∈ Machine.finalControls) :
    ctrl.toNat = 3 + 8 * (ctrlNb ctrl).toNat := by
  decide +revert

/-- The list of R74 is that of R73. -/
theorem mem_legalControls_iff {ctrl : BitVec 8} :
    ctrl ∈ Machine.legalControls ↔
      ctrl = 0x00 ∨ ctrl = 0x01 ∨ ctrl = 0x02 ∨ ctrl ∈ Machine.finalControls ∨ ctrl = 0x04 := by
  decide +revert

/-- A command decodes to an instruction exactly when its CTRL value is listed (30_encoding R74). -/
theorem decode_eq_instr_iff (c : Command) : (∃ i, decode c = .instr i) ↔ c.ctrl ∈ Machine.legalControls := by
  rw [mem_legalControls_iff]
  constructor
  · rintro ⟨i, h⟩
    obtain ⟨-, h⟩ | ⟨-, h⟩ | ⟨-, h⟩ | ⟨-, h⟩ | ⟨-, h⟩ := decode_cases h
    · exact .inl h
    · exact .inr (.inl h)
    · exact .inr (.inr (.inl h))
    · exact .inr (.inr (.inr (.inl h)))
    · exact .inr (.inr (.inr (.inr h)))
  · rintro (h | h | h | h | h)
    · exact ⟨_, decode_of_nop_ctrl h⟩
    · exact ⟨_, decode_of_init_ctrl h⟩
    · exact ⟨_, decode_of_block_ctrl h⟩
    · exact ⟨_, decode_of_final_ctrl (Nat.le_of_lt_succ (ctrlNb c.ctrl).isLt) (toNat_of_mem_finalControls h)⟩
    · exact ⟨_, decode_of_clear_ctrl h⟩

/-- The predicate of R74 holds of exactly the CTRL values R74 lists. -/
theorem legal_iff_mem_legalControls (ctrl : BitVec 8) : legal ctrl = true ↔ ctrl ∈ Machine.legalControls := by
  decide +revert

/-- The three causes of 30_encoding R75, one branch of `legal` at a time; OP is a 3-bit number. -/
theorem legal_eq_false_iff (ctrl : BitVec 8) :
    legal ctrl = false ↔
      ctrlOp ctrl = 0b101 ∨ ctrlOp ctrl = 0b110 ∨ ctrlOp ctrl = 0b111 ∨ ctrlRsv ctrl ≠ 0 ∨
        (ctrlNb ctrl ≠ 0 ∧ ctrlOp ctrl ≠ 0b011) := by
  have hop := (ctrlOp ctrl).isLt
  simp only [legal, ne_eq, BitVec.toNat_eq, BitVec.ofNat_eq_ofNat, BitVec.toNat_ofNat, Nat.reducePow, Nat.reduceMod]
  split_ifs
  all_goals simp only [true_iff, false_iff]
  all_goals omega

/-- The decoder refuses a command whose CTRL value is not legal (30_encoding R75). -/
theorem decode_eq_illegal_of_not_legal {c : Command} (h : legal c.ctrl = false) : ∃ why, decode c = .illegal why := by
  cases hdec : decode c with
  | illegal why => exact ⟨why, rfl⟩
  | instr i =>
    have hlegal := (legal_iff_mem_legalControls c.ctrl).mpr ((decode_eq_instr_iff c).mp ⟨i, hdec⟩)
    rw [h] at hlegal
    cases hlegal

end Sys2Proof
end

section
/-! SUPPORT. A busy period runs to its end in at most six edges (10_state R26; 43_sequencer R172, R173, R176). -/

namespace Sys2Proof.Machine

variable {s t : State}

theorem phaseEdges_le (s : State) (n : Nat) : phaseEdges s n ≤ n := by
  unfold phaseEdges roundsEachEdge
  split <;> omega

theorem BusyRun.supplier {n : Nat} (h : BusyRun n s t) : t.supplier = s.supplier := by
  induction h with
  | refl => rfl
  | head _ first _ ih => rw [ih, sequencerEdge_supplier first]

/-- The compression rounds left take at most two edges (43_sequencer R172). -/
theorem busyRun_compression (hf : s.fsm = .comp) (hrc : s.rc.toNat < 2) :
    ∃ n ≤ 2, BusyRun n s (s.compressed (2 - s.rc.toNat)) := by
  have hrun := busyRun_phase (2 - s.rc.toNat) s (by omega) (by rw [hf, Fsm.phaseRounds]; omega)
  rw [State.phaseEnd_of_comp hf] at hrun
  exact ⟨_, (phaseEdges_le _ _).trans (Nat.sub_le _ _), hrun⟩

/-- The finalization rounds left take at most four edges (43_sequencer R173). -/
theorem busyRun_finalization (hf : s.fsm = .fin) (hrc : s.rc.toNat < 4) :
    ∃ n ≤ 4, BusyRun n s (s.finalized (4 - s.rc.toNat)) := by
  have hrun := busyRun_phase (4 - s.rc.toNat) s (by omega) (by rw [hf, Fsm.phaseRounds]; omega)
  rw [State.phaseEnd_of_fin hf] at hrun
  exact ⟨_, (phaseEdges_le _ _).trans (Nat.sub_le _ _), hrun⟩

/-- From every state that meets the invariant, at most six edges of the sequencer lead to one that accepts commands: none
from an idle state, and from COMP both phases if the word is a FINAL's. -/
theorem busyRun_until_accepts (h : s.Inv = true) : ∃ n t, n ≤ 6 ∧ BusyRun n s t ∧ t.fsm.accepts = true := by
  cases hf : s.fsm with
  | unkeyed | ready | done => exact ⟨0, s, by omega, .refl s, by rw [hf]; rfl⟩
  | comp =>
    obtain ⟨hrc, -⟩ := (inv_iff_of_comp hf).mp h
    obtain ⟨m, hm, hcomp⟩ := busyRun_compression hf hrc
    cases hlast : s.lastblk with
    | false => exact ⟨m, _, by omega, hcomp, by simp [hlast, Fsm.accepts]⟩
    | true =>
      obtain ⟨n, hn, hfin⟩ := busyRun_finalization (s := s.compressed (2 - s.rc.toNat)) (by simp [hlast]) (by simp)
      exact ⟨m + n, _, by omega, hcomp.trans hfin, rfl⟩
  | fin =>
    obtain ⟨hrc, -⟩ := (inv_iff_of_fin hf).mp h
    obtain ⟨n, hn, hfin⟩ := busyRun_finalization hf hrc
    exact ⟨n, _, by omega, hfin, rfl⟩

end Sys2Proof.Machine
end

section
/-! SUPPORT. What raising an error and accepting an illegal command leave (30_encoding R75, 60_exceptions R201, R203). -/

namespace Sys2Proof.Machine

/-- The first error is kept, and no other register changes (60_exceptions R201, R203). -/
theorem raiseErr_eq (s : State) (code : ErrCode) :
    s.raiseErr code = { s with err := true, errcode := if s.err then s.errcode else code } := by
  unfold State.raiseErr
  cases herr : s.err with
  | false => rfl
  | true => rw [if_pos rfl, if_pos rfl, ← herr]

theorem accept_of_not_legal {c : Command} (h : legal c.ctrl = false) (s : State) :
    accept c s = .next (s.raiseErr .illegal) := by
  obtain ⟨why, hdec⟩ := decode_eq_illegal_of_not_legal h
  rw [accept, hdec, execIllegal]

end Sys2Proof.Machine
end

section
/-! Legal and illegal commands, their operands, the byte-list forms, and the acceptance of a presented command
(30_encoding R70-R78; 70_reset_and_hazards R224). -/

namespace Sys2Proof.Machine

/-- Settles O50: the busy period runs to its end under the presented command, which the sequencer's edges leave in the
script and the ready block then accepts. -/
theorem presentedCommandIsAccepted : Obligations.PresentedCommandIsAccepted := by
  unfold Obligations.PresentedCommandIsAccepted
  intro s c rest hinv hs
  obtain ⟨n, t, hn, hrun, haccepts⟩ := busyRun_until_accepts hinv
  have hwait : waitsForReady s.supplier = true := by rw [hs]; rfl
  have hpresented : t.supplier = .present c :: rest := hrun.supplier.trans hs
  have hready : t.cmdReady false = true := haccepts
  exact ⟨n, t, hn, hrun.run hwait, hready, hpresented, step_of_present_ready hpresented hready⟩

/-- Settles O18: the causes are the branches of `legal`, and an edge that accepts a command the decoder refuses raises
ERR_ILLEGAL, which leaves `fsm` and so `cmd_ready` as they were. -/
theorem illegalCommandOnlyRecordsTheError : Obligations.IllegalCommandOnlyRecordsTheError := by
  unfold Obligations.IllegalCommandOnlyRecordsTheError
  refine ⟨legal_eq_false_iff, fun s p hrst hvalid hready hillegal => ?accepted⟩
  case accepted =>
    have haccepts : s.acceptsAt p = true := by rw [State.acceptsAt, hrst, hvalid, hready]; rfl
    have hedge : edge p s = .next (s.raiseErr .illegal) :=
      (edge_of_accept haccepts).trans (accept_of_not_legal hillegal s)
    refine ⟨hedge.trans (congrArg _ (raiseErr_eq s .illegal)), fun t ht => ?ready⟩
    case ready =>
      cases hedge.symm.trans ht
      rwa [State.cmdReady, State.raiseErr_fsm]

/-- Settles O1: each word is evaluated. -/
theorem specWordsDecode : Obligations.SpecWordsDecode := by
  unfold Obligations.SpecWordsDecode
  decide

/-- Settles O2: both the decoder and `legal` pick out the listed CTRL values. -/
theorem exactlyTwelveControlsAreLegal : Obligations.ExactlyTwelveControlsAreLegal := by
  unfold Obligations.ExactlyTwelveControlsAreLegal
  exact fun c => ⟨decode_eq_instr_iff c, legal_iff_mem_legalControls c.ctrl⟩

/-- Settles O3, command by command. -/
theorem operandsAreAssembledFromTheCommand : Obligations.OperandsAreAssembledFromTheCommand := by
  unfold Obligations.OperandsAreAssembledFromTheCommand
  exact fun c => ⟨decode_of_nop_ctrl, decode_of_init_ctrl, decode_of_block_ctrl,
    fun _ hnb hctrl => decode_of_final_ctrl hnb hctrl, decode_of_clear_ctrl⟩

/-- Settles O52: each byte-list form packs its bytes and has the length check of its command; no bytes pack to 0. -/
theorem byteListForms : Obligations.ByteListForms := by
  unfold Obligations.ByteListForms
  intro bytes
  refine ⟨fun hlength => ?blockb, fun _ => ?finalb, ?empty⟩
  case blockb => exact if_pos hlength
  case finalb => rfl
  case empty => rfl

end Sys2Proof.Machine
end

section
/-! SUPPORT. A state of the block built with another datapath: the same rounds, and so every operation of an edge commutes
with the exchange (40_sipround R107; 43_sequencer R179). -/

namespace Sys2Proof.Machine

variable {s t : State} (d : Datapath)

/-- The state of the same block built with datapath `d` (43_sequencer R179). -/
def State.withDatapath (s : State) (d : Datapath) : State := { s with config := { s.config with datapath := d } }

/-- Every datapath computes the same rounds (40_sipround R107). -/
theorem afterRounds_withDatapath (s : State) (k : Nat) : (s.withDatapath d).afterRounds k = s.afterRounds k :=
  ((s.withDatapath d).afterRounds_eq_sipRounds k).trans (s.afterRounds_eq_sipRounds k).symm

theorem raiseErr_withDatapath (s : State) (code : ErrCode) :
    (s.withDatapath d).raiseErr code = (s.raiseErr code).withDatapath d := by
  rw [raiseErr_eq, raiseErr_eq]
  rfl

theorem midPhase_withDatapath (s : State) (k : Nat) :
    (s.withDatapath d).midPhase k = (s.midPhase k).withDatapath d := by
  rw [State.midPhase, afterRounds_withDatapath]
  rfl

theorem compressed_withDatapath (s : State) (k : Nat) :
    (s.withDatapath d).compressed k = (s.compressed k).withDatapath d := by
  have hlast : (s.withDatapath d).lastblk = s.lastblk := rfl
  rw [State.compressed, State.compressed, afterRounds_withDatapath, hlast]
  cases s.lastblk <;> rfl

theorem finalized_withDatapath (s : State) (k : Nat) :
    (s.withDatapath d).finalized k = (s.finalized k).withDatapath d := by
  rw [State.finalized, afterRounds_withDatapath]
  rfl

theorem exec_withDatapath {i : Instr} (h : exec i s = .next t) :
    exec i (s.withDatapath d) = .next (t.withDatapath d) := by
  obtain ⟨rfl, rfl⟩ | ⟨k0, k1, rfl, rfl⟩ | ⟨rfl, rfl⟩ | ⟨m, rfl, hf, rfl⟩ | ⟨m, rfl, hf, rfl⟩ | ⟨nb, w, rfl, hf, rfl⟩ |
    ⟨nb, w, rfl, hf, rfl⟩ := exec_cases h
  case inl | inr.inl | inr.inr.inl => rfl
  case inr.inr.inr.inl | inr.inr.inr.inr.inr.inl =>
    rw [← raiseErr_withDatapath]
    exact if_pos hf
  case inr.inr.inr.inr.inl | inr.inr.inr.inr.inr.inr => exact if_neg (not_not.mpr hf)

theorem accept_withDatapath {c : Command} (h : accept c s = .next t) :
    accept c (s.withDatapath d) = .next (t.withDatapath d) := by
  obtain ⟨i, hdec, hexec⟩ | ⟨why, hdec, rfl⟩ := accept_cases h
  · rw [accept, hdec]
    exact exec_withDatapath d hexec
  · rw [accept, hdec, ← raiseErr_withDatapath]
    rfl

theorem compressionEdge_withDatapath (h : compressionEdge s = .next t) :
    compressionEdge (s.withDatapath d) = .next (t.withDatapath d) := by
  obtain ⟨hrc, ⟨heq, rfl⟩ | ⟨hne, rfl⟩⟩ := compressionEdge_cases h
  · rw [← compressed_withDatapath]
    exact (if_neg (Nat.not_le.mpr hrc)).trans (if_pos heq)
  · rw [← midPhase_withDatapath]
    exact (if_neg (Nat.not_le.mpr hrc)).trans (if_neg hne)

theorem finalizationEdge_withDatapath (h : finalizationEdge s = .next t) :
    finalizationEdge (s.withDatapath d) = .next (t.withDatapath d) := by
  obtain ⟨hrc, ⟨heq, rfl⟩ | ⟨hne, rfl⟩⟩ := finalizationEdge_cases h
  · rw [← finalized_withDatapath]
    exact (if_neg (Nat.not_le.mpr hrc)).trans (if_pos heq)
  · rw [← midPhase_withDatapath]
    exact (if_neg (Nat.not_le.mpr hrc)).trans (if_neg hne)

/-- What an edge accepts does not depend on the datapath. -/
theorem edge_withDatapath_of_noAccept {p : PortIn} (hr : p.rst = false) (ha : s.acceptsAt p = false) :
    edge p (s.withDatapath d) = sequencerEdge (s.withDatapath d) :=
  edge_of_noAccept hr ha

theorem edge_withDatapath {p : PortIn} (h : edge p s = .next t) :
    edge p (s.withDatapath d) = .next (t.withDatapath d) := by
  obtain ⟨hr, rfl⟩ | ⟨ha, hacc⟩ | ⟨hr, ha, hf, hround⟩ | ⟨hr, ha, hf, hround⟩ | ⟨hr, ha, hf, rfl⟩ := edge_cases h
  · exact edge_of_reset hr
  · exact (edge_of_accept (s := s.withDatapath d) ha).trans (accept_withDatapath d hacc)
  · have hedge := (edge_withDatapath_of_noAccept d hr ha).trans (sequencerEdge_of_comp hf)
    exact hedge.trans (compressionEdge_withDatapath d hround)
  · have hedge := (edge_withDatapath_of_noAccept d hr ha).trans (sequencerEdge_of_fin hf)
    exact hedge.trans (finalizationEdge_withDatapath d hround)
  · exact (edge_withDatapath_of_noAccept d hr ha).trans (sequencerEdge_of_accepts hf)

end Sys2Proof.Machine
end

section
/-! The rotation and the datapath (40_sipround R102, R107, R108; 43_sequencer R179). -/

namespace Sys2Proof.Machine

/-- Settles O25: the bits below `b` come from the right shift, the others from the left shift. -/
theorem rotationBits : Obligations.RotationBits := by
  unfold Obligations.RotationBits
  intro x b i hb hb' hi
  rw [rotl, BitVec.getLsbD_or, BitVec.getLsbD_shiftLeft, BitVec.getLsbD_ushiftRight]
  by_cases hib : i < b
  · have hsource : (i + 64 - b) % 64 = 64 - b + i := by omega
    simp [hib, hsource]
  · have hsource : (i + 64 - b) % 64 = i - b := by omega
    have hbeyond : x.getLsbD (64 - b + i) = false := x.getLsbD_of_ge _ (by omega)
    simp [hib, hi, hsource, hbeyond]

/-- Settles O27: SipRound's three forms are one function, and two half-round stages are one round. -/
theorem everyDatapathChainsSipRounds : Obligations.EveryDatapathChainsSipRounds := by
  unfold Obligations.EveryDatapathChainsSipRounds
  exact datapathRounds_eq_sipRounds

/-- Settles O39: every operation of an edge commutes with the exchange of the datapath, since every datapath computes the same
rounds. -/
theorem datapathDoesNotShow : Obligations.DatapathDoesNotShow := by
  unfold Obligations.DatapathDoesNotShow
  exact fun _ _ d _ h => edge_withDatapath d h

end Sys2Proof.Machine
end

section
/-! SUPPORT. An accepted legal command is its instruction's accept edge, and what an accept edge does to a recorded error
(41_control_commands R120, R121; 60_exceptions R203, R204). -/

namespace Sys2Proof.Machine

variable {s t : State}

/-- The acceptance condition over the ports (41_control_commands R120). -/
theorem acceptsAt_iff (s : State) (p : PortIn) :
    s.acceptsAt p = true ↔ p.rst = false ∧ p.cmdValid = true ∧ s.cmdReady p.rst = true := by
  rw [State.acceptsAt, Bool.and_eq_true, Bool.and_eq_true, Bool.not_eq_true', and_assoc]

/-- `cmd_ready` with `rst = 0` is the column "accepts commands" of 10_state R25 (R37). -/
theorem cmdReady_of_rst_low (s : State) : s.cmdReady false = s.fsm.accepts := Bool.true_and _

theorem accept_of_decode {c : Command} {i : Instr} (h : decode c = .instr i) (s : State) : accept c s = exec i s := by
  rw [accept, h]

/-- An edge that accepts a legal command executes it (41_control_commands R121). -/
theorem edge_of_accept_decode {p : PortIn} {i : Instr} (ha : s.acceptsAt p = true) (hdec : decode p.cmd = .instr i) :
    edge p s = exec i s :=
  (edge_of_accept ha).trans (accept_of_decode hdec s)

theorem decode_of_decodeTableWord {nbits w : Nat} {i : Instr} (h : decodeTableWord nbits w = some i) :
    decode (tableCommand nbits w) = .instr i := by
  unfold decodeTableWord at h
  split at h
  next hdec => rw [hdec, Option.some.inj h]
  next => cases h

theorem not_legal_of_nop_op {ctrl : BitVec 8} (hop : ctrlOp ctrl = 0) (hne : ctrl ≠ 0x00) : legal ctrl = false := by
  decide +revert

/-- A recorded error stays the recorded one (60_exceptions R203). -/
theorem raiseErr_of_err (h : s.err = true) (code : ErrCode) : s.raiseErr code = s := if_pos h

/-- CLEAR alone clears the error record (60_exceptions R204). -/
theorem exec_keeps_recorded_error {i : Instr} (hi : i ≠ .clear) (h : exec i s = .next t) (herr : s.err = true) :
    t.err = true ∧ t.errcode = s.errcode := by
  obtain ⟨-, rfl⟩ | ⟨k0, k1, -, rfl⟩ | ⟨hclear, -⟩ | ⟨m, -, -, rfl⟩ | ⟨m, -, -, rfl⟩ | ⟨nb, w, -, -, rfl⟩ |
    ⟨nb, w, -, -, rfl⟩ := exec_cases h
  case inr.inr.inl => exact absurd hclear hi
  case inr.inr.inr.inl | inr.inr.inr.inr.inr.inl =>
    rw [raiseErr_of_err herr]
    exact ⟨herr, rfl⟩
  all_goals exact ⟨herr, rfl⟩

theorem status_of_ready (h : s.fsm = .ready) :
    s.status = s.blen ++ s.errcode.code ++ BitVec.ofBool s.err ++ 0b00001#5 := by
  rw [status_eq_append_low, State.tagValid, State.busy, h]
  rfl

end Sys2Proof.Machine
end

section
/-! SUPPORT. An edge with the error record blanked: no other register depends on the record (10_state R29, R31;
60_exceptions R201). -/

namespace Sys2Proof.Machine

variable {s t : State}

/-- The state with the error record at its reset value. -/
def State.withoutErrorRecord (s : State) : State := { s with err := false, errcode := .none }

theorem withoutErrorRecord_raiseErr (s : State) (code : ErrCode) :
    (s.raiseErr code).withoutErrorRecord = s.withoutErrorRecord := by
  rw [raiseErr_eq]
  rfl

theorem withoutErrorRecord_compressed (s : State) (k : Nat) :
    s.withoutErrorRecord.compressed k = (s.compressed k).withoutErrorRecord := by
  have hlast : s.withoutErrorRecord.lastblk = s.lastblk := rfl
  rw [State.compressed, State.compressed, hlast]
  cases s.lastblk <;> rfl

theorem exec_withoutErrorRecord {i : Instr} (h : exec i s = .next t) :
    ∃ u, exec i s.withoutErrorRecord = .next u ∧ t.withoutErrorRecord = u.withoutErrorRecord := by
  obtain ⟨rfl, rfl⟩ | ⟨k0, k1, rfl, rfl⟩ | ⟨rfl, rfl⟩ | ⟨m, rfl, hf, rfl⟩ | ⟨m, rfl, hf, rfl⟩ | ⟨nb, w, rfl, hf, rfl⟩ |
    ⟨nb, w, rfl, hf, rfl⟩ := exec_cases h
  case inl | inr.inl | inr.inr.inl => exact ⟨_, rfl, rfl⟩
  case inr.inr.inr.inl | inr.inr.inr.inr.inr.inl =>
    refine ⟨_, if_pos hf, ?_⟩
    rw [withoutErrorRecord_raiseErr, withoutErrorRecord_raiseErr]
    rfl
  case inr.inr.inr.inr.inl | inr.inr.inr.inr.inr.inr => exact ⟨_, if_neg (not_not.mpr hf), rfl⟩

theorem accept_withoutErrorRecord {c : Command} (h : accept c s = .next t) :
    ∃ u, accept c s.withoutErrorRecord = .next u ∧ t.withoutErrorRecord = u.withoutErrorRecord := by
  obtain ⟨i, hdec, hexec⟩ | ⟨why, hdec, rfl⟩ := accept_cases h
  · rw [accept_of_decode hdec]
    exact exec_withoutErrorRecord hexec
  · rw [accept, hdec]
    refine ⟨_, rfl, ?_⟩
    rw [withoutErrorRecord_raiseErr, withoutErrorRecord_raiseErr]
    rfl

theorem compressionEdge_withoutErrorRecord (h : compressionEdge s = .next t) :
    compressionEdge s.withoutErrorRecord = .next t.withoutErrorRecord := by
  obtain ⟨hrc, ⟨heq, rfl⟩ | ⟨hne, rfl⟩⟩ := compressionEdge_cases h
  · rw [← withoutErrorRecord_compressed]
    exact (if_neg (Nat.not_le.mpr hrc)).trans (if_pos heq)
  · exact (if_neg (Nat.not_le.mpr hrc)).trans (if_neg hne)

theorem finalizationEdge_withoutErrorRecord (h : finalizationEdge s = .next t) :
    finalizationEdge s.withoutErrorRecord = .next t.withoutErrorRecord := by
  obtain ⟨hrc, ⟨heq, rfl⟩ | ⟨hne, rfl⟩⟩ := finalizationEdge_cases h
  · exact (if_neg (Nat.not_le.mpr hrc)).trans (if_pos heq)
  · exact (if_neg (Nat.not_le.mpr hrc)).trans (if_neg hne)

/-- What an edge accepts does not depend on the error record. -/
theorem edge_withoutErrorRecord_of_noAccept {p : PortIn} (hr : p.rst = false) (ha : s.acceptsAt p = false) :
    edge p s.withoutErrorRecord = sequencerEdge s.withoutErrorRecord :=
  edge_of_noAccept hr ha

theorem edge_withoutErrorRecord {p : PortIn} (h : edge p s = .next t) :
    ∃ u, edge p s.withoutErrorRecord = .next u ∧ t.withoutErrorRecord = u.withoutErrorRecord := by
  obtain ⟨hr, rfl⟩ | ⟨ha, hacc⟩ | ⟨hr, ha, hf, hround⟩ | ⟨hr, ha, hf, hround⟩ | ⟨hr, ha, hf, rfl⟩ := edge_cases h
  · exact ⟨_, edge_of_reset hr, rfl⟩
  · rw [edge_of_accept (s := s.withoutErrorRecord) ha]
    exact accept_withoutErrorRecord hacc
  · have hedge := (edge_withoutErrorRecord_of_noAccept hr ha).trans (sequencerEdge_of_comp hf)
    exact ⟨_, hedge.trans (compressionEdge_withoutErrorRecord hround), rfl⟩
  · have hedge := (edge_withoutErrorRecord_of_noAccept hr ha).trans (sequencerEdge_of_fin hf)
    exact ⟨_, hedge.trans (finalizationEdge_withoutErrorRecord hround), rfl⟩
  · exact ⟨_, (edge_withoutErrorRecord_of_noAccept hr ha).trans (sequencerEdge_of_accepts hf), rfl⟩

/-- States that differ in the error record alone still do after the same edge. -/
theorem edge_keeps_withoutErrorRecord_eq {s₁ s₂ t₁ t₂ : State} {p : PortIn}
    (hs : s₁.withoutErrorRecord = s₂.withoutErrorRecord) (h₁ : edge p s₁ = .next t₁) (h₂ : edge p s₂ = .next t₂) :
    t₁.withoutErrorRecord = t₂.withoutErrorRecord := by
  obtain ⟨u₁, hu₁, heq₁⟩ := edge_withoutErrorRecord h₁
  obtain ⟨u₂, hu₂, heq₂⟩ := edge_withoutErrorRecord h₂
  rw [hs, hu₂] at hu₁
  rw [heq₁, heq₂, Host.Outcome.next.inj hu₁]

/-- What edges in a row do, the first apart, where they all have a next state. -/
theorem edges_cons_next {p : PortIn} {ps : List PortIn} (h : edges (p :: ps) s = .next t) :
    ∃ u, edge p s = .next u ∧ edges ps u = .next t := by
  cases hedge : edge p s with
  | next u => exact ⟨u, rfl, (edges_cons hedge).symm.trans h⟩
  | fault r => cases r
  | refused r => simp [edges, hedge] at h

theorem edges_keep_withoutErrorRecord_eq {s₁ s₂ t₁ t₂ : State} {ps : List PortIn}
    (hs : s₁.withoutErrorRecord = s₂.withoutErrorRecord) (h₁ : edges ps s₁ = .next t₁) (h₂ : edges ps s₂ = .next t₂) :
    t₁.withoutErrorRecord = t₂.withoutErrorRecord := by
  induction ps generalizing s₁ s₂ with
  | nil =>
    cases h₁
    cases h₂
    exact hs
  | cons p ps ih =>
    obtain ⟨u₁, hfirst₁, hrest₁⟩ := edges_cons_next h₁
    obtain ⟨u₂, hfirst₂, hrest₂⟩ := edges_cons_next h₂
    exact ih (edge_keeps_withoutErrorRecord_eq hs hfirst₁ hfirst₂) hrest₁ hrest₂

/-- INIT overwrites every register but the error record (41_control_commands R124). -/
theorem withoutErrorRecord_keyed {s₁ s₂ : State} (hconfig : s₁.config = s₂.config) (hsupplier : s₁.supplier = s₂.supplier)
    (k0 k1 : Word) : (s₁.keyed k0 k1).withoutErrorRecord = (s₂.keyed k0 k1).withoutErrorRecord := by
  simp only [State.keyed, State.withVs, State.withoutErrorRecord, hconfig, hsupplier]

theorem eq_of_withoutErrorRecord_eq {u : State} (h : t.withoutErrorRecord = u.withoutErrorRecord) :
    { t with err := u.err, errcode := u.errcode } = u :=
  calc { t with err := u.err, errcode := u.errcode }
    _ = { t.withoutErrorRecord with err := u.err, errcode := u.errcode } := rfl
    _ = { u.withoutErrorRecord with err := u.err, errcode := u.errcode } := by rw [h]
    _ = u := rfl

end Sys2Proof.Machine
end

section
/-! The acceptance of commands, and the control commands NOP, INIT and CLEAR (41_control_commands R120-R128; 10_state R31). -/

namespace Sys2Proof.Machine

/-- Settles O47: INIT overwrites all but the error record, and no edge lets the record reach another register. -/
theorem nothingSurvivesAnInit : Obligations.NothingSurvivesAnInit := by
  unfold Obligations.NothingSurvivesAnInit
  intro s₁ s₂ a₁ a₂ t₁ t₂ k0 k1 ps hconfig hsupplier hinit₁ hinit₂ hedges₁ hedges₂
  obtain rfl : s₁.keyed k0 k1 = a₁ := Host.Outcome.next.inj hinit₁
  obtain rfl : s₂.keyed k0 k1 = a₂ := Host.Outcome.next.inj hinit₂
  have hkeyed := withoutErrorRecord_keyed hconfig hsupplier k0 k1
  exact eq_of_withoutErrorRecord_eq (edges_keep_withoutErrorRecord_eq hkeyed hedges₁ hedges₂)

/-- Settles O6: what a step accepts does not depend on the script that is left, and a table word's command, put before the
script, leaves the script itself when it is accepted. -/
theorem stepRunsTheDecodedInstruction : Obligations.StepRunsTheDecodedInstruction := by
  unfold Obligations.StepRunsTheDecodedInstruction
  have hpresent : ∀ (s : State) (c : Command) (rest : List Stimulus) (i : Instr), s.supplier = .present c :: rest →
      s.cmdReady false = true → decode c = .instr i → step s = exec i (s.withSupplier rest) :=
    fun s c rest i hs hready hdec => (step_of_present_ready hs hready).trans (accept_of_decode hdec _)
  refine ⟨fun s i ha hdec => ?ports, hpresent, fun s nbits w i hready hword => ?word⟩
  case ports => exact edge_of_accept_decode (s := s.withSupplier s.scriptAfter) ha hdec
  case word => exact hpresent (s.withFetchWord nbits w) _ _ i rfl hready (decode_of_decodeTableWord hword)

/-- Settles O7: without acceptance an edge is a reset edge or the sequencer's, and neither reads the command port. -/
theorem unacceptedCommandHasNoEffect : Obligations.UnacceptedCommandHasNoEffect := by
  unfold Obligations.UnacceptedCommandHasNoEffect
  intro s p c hno
  cases hrst : p.rst with
  | true => rw [edge_of_reset hrst, edge_of_reset rfl]
  | false =>
    have ha : s.acceptsAt p = false := by
      rw [State.acceptsAt]
      obtain hvalid | hready := hno
      · rw [hvalid, Bool.and_false, Bool.false_and]
      · rw [hready, Bool.and_false]
    rw [edge_of_noAccept hrst ha, edge_of_noAccept rfl rfl]

/-- Settles O8: with `rst = 0`, `cmd_ready` is 1 in exactly the three idle states. -/
theorem acceptanceCondition : Obligations.AcceptanceCondition := by
  unfold Obligations.AcceptanceCondition
  intro s p
  refine ⟨?idle, acceptsAt_iff s p, edge_of_accept⟩
  case idle =>
    rw [acceptsAt_iff, ← Fsm.accepts_iff, ← cmdReady_of_rst_low]
    exact and_congr_right fun hrst => by rw [hrst]

/-- Settles O12: CTRL 0 decodes to NOP, and every other CTRL with OP = 000 is refused by the decoder. -/
theorem nopChangesNothing : Obligations.NopChangesNothing := by
  unfold Obligations.NopChangesNothing
  refine fun s => ⟨rfl, fun p ha => ⟨fun hctrl => ?nop, fun hop hne => ?illegal⟩⟩
  case nop => exact edge_of_accept_decode ha (decode_of_nop_ctrl hctrl)
  case illegal =>
    have hillegal := not_legal_of_nop_op hop hne
    exact ⟨hillegal, (edge_of_accept ha).trans (accept_of_not_legal hillegal s)⟩

/-- Settles O13: the next state is the keyed one, whose registers and outputs are read off. -/
theorem initLoadsTheKey : Obligations.InitLoadsTheKey := by
  unfold Obligations.InitLoadsTheKey
  intro s k0 k1
  refine ⟨s.keyed k0 k1, rfl, rfl, rfl, rfl, rfl, rfl, rfl, rfl, rfl, rfl, rfl, rfl, rfl, rfl, rfl, rfl,
    status_of_ready rfl, fun p ha hcmd => ?edge⟩
  case edge =>
    have hdec : decode p.cmd = .instr (.init k0 k1) := by rw [hcmd, decode_of_init_ctrl rfl]
    exact edge_of_accept_decode ha hdec

/-- Settles O14: the next state is the zeroized one; a busy block accepts nothing, and any other instruction keeps a recorded
error. -/
theorem clearZeroizesEveryRegister : Obligations.ClearZeroizesEveryRegister := by
  unfold Obligations.ClearZeroizesEveryRegister
  intro s
  refine ⟨s.zeroized, rfl, rfl, status_zeroized s, fun p ha hctrl => ?edge, fun p hbusy => ?busy,
    fun i u hi hexec herr => exec_keeps_recorded_error hi hexec herr⟩
  case edge => exact edge_of_accept_decode ha (decode_of_clear_ctrl hctrl)
  case busy =>
    rw [busy_eq_not_cmdReady, cmdReady_of_rst_low, Bool.not_eq_true'] at hbusy
    exact acceptsAt_false_of_busy p hbusy

end Sys2Proof.Machine
end

section
/-! SUPPORT. A busy period under any port values without reset (43_sequencer R171, R178). -/

namespace Sys2Proof.Machine

variable {s t : State}

/-- A busy block leaves an edge without reset to the sequencer, whatever is on the command port. -/
theorem edge_of_busy {p : PortIn} (hrst : p.rst = false) (hbusy : s.fsm.accepts = false) :
    edge p s = sequencerEdge s :=
  edge_of_noAccept hrst (acceptsAt_false_of_busy p hbusy)

/-- Port values without reset drive a busy period edge by edge; what is left of the period is a busy period. -/
theorem BusyRun.edges_le {n : Nat} {ps : List PortIn} (h : BusyRun n s t) (hrst : ∀ p ∈ ps, p.rst = false)
    (hlen : ps.length ≤ n) : ∃ u, edges ps s = .next u ∧ BusyRun (n - ps.length) u t := by
  induction ps generalizing n s with
  | nil => exact ⟨s, rfl, h⟩
  | cons p ps ih =>
    obtain ⟨hfirst, hrest⟩ := List.forall_mem_cons.mp hrst
    cases h with
    | refl => exact absurd hlen (Nat.not_succ_le_zero _)
    | head busy first tail =>
      obtain ⟨u, hu, hrun⟩ := ih tail hrest (Nat.le_of_succ_le_succ hlen)
      refine ⟨u, (edges_cons ((edge_of_busy hfirst busy).trans first)).trans hu, ?_⟩
      rwa [List.length_cons, Nat.add_sub_add_right]

/-- As many edges without reset as the busy period has lead to its end. -/
theorem BusyRun.edges_eq {n : Nat} {ps : List PortIn} (h : BusyRun n s t) (hrst : ∀ p ∈ ps, p.rst = false)
    (hlen : ps.length = n) : edges ps s = .next t := by
  obtain ⟨u, hu, hrun⟩ := h.edges_le hrst hlen.le
  rw [hlen, Nat.sub_self] at hrun
  cases hrun
  exact hu

theorem BusyRun.accepts_eq_false {n : Nat} (h : BusyRun n s t) (hn : 0 < n) : s.fsm.accepts = false := by
  cases h with
  | refl => exact absurd hn (Nat.lt_irrefl 0)
  | head busy _ _ => exact busy

/-- Fewer edges without reset than the busy period has lead to a state inside it. -/
theorem BusyRun.edges_lt {n : Nat} {ps : List PortIn} (h : BusyRun n s t) (hrst : ∀ p ∈ ps, p.rst = false)
    (hlen : ps.length < n) : ∃ u, edges ps s = .next u ∧ u.fsm.accepts = false ∧ BusyRun (n - ps.length) u t := by
  obtain ⟨u, hu, hrun⟩ := h.edges_le hrst hlen.le
  exact ⟨u, hu, hrun.accepts_eq_false (Nat.sub_pos_of_lt hlen), hrun⟩

/-- Finalization ends in DONE alone, so a busy period from FIN does not end in READY (43_sequencer R173). -/
theorem BusyRun.fsm_of_fin {n : Nat} (h : BusyRun n s t) (hf : s.fsm = .fin ∨ s.fsm = .done) :
    t.fsm = .fin ∨ t.fsm = .done := by
  induction h with
  | refl => exact hf
  | head busy first _ ih =>
    obtain hf | hf := hf
    · rw [sequencerEdge_of_fin hf] at first
      obtain ⟨-, ⟨-, rfl⟩ | ⟨-, rfl⟩⟩ := finalizationEdge_cases first
      · exact ih (.inr rfl)
      · exact ih (.inl hf)
    · rw [hf] at busy
      cases busy

/-- A busy period that ends in READY is in COMP until then. -/
theorem BusyRun.fsm_eq_comp {n : Nat} (h : BusyRun n s t) (hbusy : s.fsm.accepts = false) (ht : t.fsm = .ready) :
    s.fsm = .comp := by
  cases hf : s.fsm with
  | comp => rfl
  | fin =>
    have hend := h.fsm_of_fin (.inl hf)
    simp [ht] at hend
  | unkeyed | ready | done =>
    rw [hf] at hbusy
    cases hbusy

theorem busy_of_not_accepts (h : s.fsm.accepts = false) : s.busy = true := by
  rw [busy_eq_not_cmdReady, cmdReady_of_rst_low, h]
  rfl

end Sys2Proof.Machine
end

section
/-! SUPPORT. The final word byte by byte, and the words that a message's bytes spell (42_message_commands R144, R150;
70_reset_and_hazards R227). -/

namespace Sys2Proof.Machine

/-- The tail bytes below `nb`, the length byte in lane 7 and 0 elsewhere (42_message_commands R144). -/
theorem byteOf_finalWord {i : Nat} (hi : i < 8) (L : BitVec 8) (nb : Nat) (w : Word) :
    byteOf (finalWord L nb w) i = (if i < nb then byteOf w i else 0) ||| if i = 7 then L else 0 := by
  rw [finalWord, byteOf_or, byteOf_and_maskBytes hi, byteOf_zeroExtend_shiftLeft (i := 7) hi]

theorem byteOf_finalWord_seven {nb : Nat} (hnb : nb ≤ 7) (L : BitVec 8) (w : Word) :
    byteOf (finalWord L nb w) 7 = L := by
  rw [byteOf_finalWord (by decide), if_neg (Nat.not_lt.mpr hnb), if_pos rfl]
  exact BitVec.zero_or

@[simp] theorem length_firstBytes (n : Nat) (w : Word) : (firstBytes n w).length = n := by simp [firstBytes]

/-- Packing the first `n` bytes of a word gives those bytes back (20_memory R53). -/
theorem byteOf_leWord_firstBytes {i n : Nat} (hn : n ≤ 8) (hi : i < n) (w : Word) :
    byteOf (leWord (firstBytes n w)) i = byteOf w i := by
  rw [packingIsLittleEndian (firstBytes n w) i (by rwa [length_firstBytes]) (by omega)]
  simp [firstBytes, hi]

theorem leWord_firstBytes_eight (w : Word) : leWord (firstBytes 8 w) = w :=
  eq_of_byteOf_eq fun _ hi => byteOf_leWord_firstBytes le_rfl hi w

section
variable {bytes msg : List Byte}

theorem length_append_div_eight (h : bytes.length = 8) : (bytes ++ msg).length / 8 = msg.length / 8 + 1 := by
  rw [List.length_append, h, Nat.add_comm, Nat.add_div_right _ (by decide)]

theorem drop_append_eight (h : bytes.length = 8) (j : Nat) :
    (bytes ++ msg).drop (8 * (j + 1)) = msg.drop (8 * j) := by
  rw [Nat.mul_succ, Nat.add_comm, ← h, List.drop_length_add_append]

/-- A full block in front of a message is its first block. -/
theorem blockWords_append (h : bytes.length = 8) : blockWords (bytes ++ msg) = leWord bytes :: blockWords msg := by
  have hhead : blockBytes (bytes ++ msg) 0 = bytes := by
    rw [blockBytes, Nat.mul_zero, List.drop_zero, ← h, List.take_left]
  have hrest (j : Nat) : blockBytes (bytes ++ msg) (j + 1) = blockBytes msg j := by
    rw [blockBytes, blockBytes, drop_append_eight h]
  rw [blockWords, length_append_div_eight h, List.range_succ_eq_map, List.map_cons, List.map_map, hhead, blockWords]
  simp only [Function.comp_def, Nat.succ_eq_add_one, hrest]

theorem tailBytes_append (h : bytes.length = 8) : tailBytes (bytes ++ msg) = tailBytes msg := by
  rw [tailBytes, length_append_div_eight h, drop_append_eight h, tailBytes]

theorem blockWords_of_length_lt (h : msg.length < 8) : blockWords msg = [] := by
  rw [blockWords, Nat.div_eq_of_lt h]
  rfl

theorem tailBytes_of_length_lt (h : msg.length < 8) : tailBytes msg = msg := by
  rw [tailBytes, Nat.div_eq_of_lt h]
  rfl
end

section
variable (ms : List Word) {nb : Nat} (w : Word)

theorem spelledMessage_nil (nb : Nat) : spelledMessage [] nb w = firstBytes nb w := rfl

theorem spelledMessage_cons (m : Word) (nb : Nat) :
    spelledMessage (m :: ms) nb w = firstBytes 8 m ++ spelledMessage ms nb w := by
  rw [spelledMessage, List.flatMap_cons, List.append_assoc, spelledMessage]

theorem length_spelledMessage (nb : Nat) : (spelledMessage ms nb w).length = 8 * ms.length + nb := by
  induction ms with
  | nil => rw [spelledMessage_nil, length_firstBytes, List.length_nil, Nat.mul_zero, Nat.zero_add]
  | cons m ms ih =>
    rw [spelledMessage_cons, List.length_append, length_firstBytes, ih, List.length_cons]
    omega

/-- The full blocks of the message spelled are the BLOCK words. -/
theorem blockWords_spelledMessage (hnb : nb ≤ 7) : blockWords (spelledMessage ms nb w) = ms := by
  induction ms with
  | nil => exact blockWords_of_length_lt ((length_firstBytes nb w).trans_lt (Nat.lt_succ_of_le hnb))
  | cons m ms ih => rw [spelledMessage_cons, blockWords_append (length_firstBytes 8 m), leWord_firstBytes_eight, ih]

/-- The trailing bytes of the message spelled are the FINAL's. -/
theorem tailBytes_spelledMessage (hnb : nb ≤ 7) : tailBytes (spelledMessage ms nb w) = firstBytes nb w := by
  induction ms with
  | nil => exact tailBytes_of_length_lt ((length_firstBytes nb w).trans_lt (Nat.lt_succ_of_le hnb))
  | cons m ms ih => rw [spelledMessage_cons, tailBytes_append (length_firstBytes 8 m), ih]
end

/-- The completed effect of a FINAL depends only on the low `nb` bytes of its operand (42_message_commands R153). -/
theorem finalDone_congr {nb : Nat} {w w' : Word} (h : ∀ i, i < nb → byteOf w i = byteOf w' i) (s : State) :
    s.finalDone nb w = s.finalDone nb w' := by
  simp only [State.finalDone, State.finalQuad, State.finalWordOf, finalWord_congr h]

/-- A FINAL ends alike with its operand and with the packed trailing bytes of the message spelled. -/
theorem finalDone_leWord_tailBytes_spelledMessage {nb : Nat} (hnb : nb ≤ 7) (s : State) (ms : List Word) (w : Word) :
    s.finalDone nb (leWord (tailBytes (spelledMessage ms nb w))) = s.finalDone nb w := by
  rw [tailBytes_spelledMessage ms w hnb]
  exact finalDone_congr (fun i hi => byteOf_leWord_firstBytes (by omega) hi w) s

end Sys2Proof.Machine
end

section
/-! The message commands BLOCK and FINAL: their accept edges, their completed effects, the final word and the message
that commands spell (42_message_commands R140-R145; 43_sequencer R178; 70_reset_and_hazards R227). -/

namespace Sys2Proof.Machine

/-- Settles O37: the edges after the accept edge are the busy period of the compression rounds, which is in COMP until it
ends in READY. -/
theorem blockCompletes : Obligations.BlockCompletes := by
  unfold Obligations.BlockCompletes
  intro s m ps hready hrst
  have hrun := busyRun_block s m
  refine ⟨_, exec_block_of_ready hready m, fun hlen => ?during, fun hlen => ?after⟩
  case during =>
    obtain ⟨u, hu, hbusy, hleft⟩ := hrun.edges_lt hrst (by rw [blockEdges] at hlen; omega)
    exact ⟨u, hu, hleft.fsm_eq_comp hbusy rfl⟩
  case after => exact hrun.edges_eq hrst (by rw [blockEdges] at hlen; omega)

/-- Settles O38: the edges after the accept edge are the busy period of the compression and the finalization rounds. -/
theorem finalCompletes : Obligations.FinalCompletes := by
  unfold Obligations.FinalCompletes
  rintro s nb w ps _ _ _ hready hrst rfl rfl rfl
  have hrun := busyRun_final s nb w
  refine ⟨_, exec_final_of_ready hready nb w, fun hlen => ?during, fun hlen => ?after⟩
  case during =>
    obtain ⟨u, hu, hbusy, -⟩ := hrun.edges_lt hrst (by rw [finalEdges] at hlen; omega)
    exact ⟨u, hu, busy_of_not_accepts hbusy⟩
  case after => exact hrun.edges_eq hrst (by rw [finalEdges] at hlen; omega)

/-- Settles O55: the full blocks of the message spelled are the BLOCK words and its trailing bytes the FINAL's, so the
completed effects are those of a HASH of that message. -/
theorem anySplitIsHashedAsTheMessageItSpells : Obligations.AnySplitIsHashedAsTheMessageItSpells := by
  unfold Obligations.AnySplitIsHashedAsTheMessageItSpells
  intro s k0 k1 ms nb w rest hr hnb hs
  have hrun := run_init_blocks_final hr hnb rfl hs
  have hlen : (spelledMessage ms nb w).length = 8 * ms.length + nb := length_spelledMessage ms w nb
  have hmod : (spelledMessage ms nb w).length % 8 = nb := by omega
  have hquad := finalQuad_foldl_blockDone_keyed (s.withSupplier (.waitTag :: rest)) k0 k1 (spelledMessage ms nb w)
  have hlength :=
    finalLength_foldl_blockDone_keyed (s.withSupplier (.waitTag :: rest)) k0 k1 (spelledMessage ms nb w)
  rw [blockWords_spelledMessage ms w hnb, hmod] at hquad hlength
  obtain ⟨-, herr, herrcode, -, hsupplier⟩ :=
    foldl_blockDone_frame ms ((s.withSupplier (.waitTag :: rest)).keyed k0 k1) rfl
  refine ⟨_, hrun, rfl, ?tag, ?blen, byteOf_finalWord_seven hnb _ w, herr, herrcode, hsupplier⟩
  case tag =>
    rw [← finalDone_leWord_tailBytes_spelledMessage hnb _ ms w, State.finalDone_tag, hquad, sipHash24]
  case blen => rw [State.finalDone_blen, hlength, BitVec.toNat_ofNat, hlen]

/-- Settles O31: the masked operand and the length byte share no lane. -/
theorem finalWordBytes : Obligations.FinalWordBytes := by
  unfold Obligations.FinalWordBytes
  intro L nb w hnb
  refine ⟨fun i hi => ?tail, fun i hi hi' => ?gap, byteOf_finalWord_seven hnb L w⟩
  case tail =>
    rw [byteOf_finalWord (by omega), if_pos hi, if_neg (by omega)]
    exact BitVec.or_zero
  case gap =>
    rw [byteOf_finalWord (by omega), if_neg (by omega), if_neg (by omega)]
    exact BitVec.or_zero

/-- Settles O15: `takeWord` written out. -/
theorem blockStartsCompression : Obligations.BlockStartsCompression := by
  unfold Obligations.BlockStartsCompression
  exact fun s m hready => exec_block_of_ready hready m

/-- Settles O16: the length byte is the sum of `blen` and the byte count as an 8-bit number, and the rest is `takeWord`
written out. -/
theorem finalStartsCompression : Obligations.FinalStartsCompression := by
  unfold Obligations.FinalStartsCompression
  intro s nb w L b hready hL hb
  obtain rfl : L = s.finalLength nb := BitVec.eq_of_toNat_eq (by simp [hL, State.finalLength])
  subst hb
  exact exec_final_of_ready hready nb w

end Sys2Proof.Machine
end

section
/-! SUPPORT. The round edges with every register written out, their rounds as `SipRound^k` (43_sequencer R172, R173). -/

namespace Sys2Proof.Machine

variable {s : State} {p : PortIn} {k : Nat}

theorem compressed_of_lastblk (h : s.lastblk = true) (k : Nat) :
    s.compressed k =
      { s with v0 := (sipRounds k s.vs).v0 ^^^ s.mreg, v1 := (sipRounds k s.vs).v1, v2 := (sipRounds k s.vs).v2 ^^^ 0xff,
               v3 := (sipRounds k s.vs).v3, rc := 0, fsm := .fin } := by
  rw [State.compressed, State.afterRounds_eq_sipRounds, if_pos h]
  rfl

theorem compressed_of_not_lastblk (h : s.lastblk = false) (k : Nat) :
    s.compressed k =
      { s with v0 := (sipRounds k s.vs).v0 ^^^ s.mreg, v1 := (sipRounds k s.vs).v1, v2 := (sipRounds k s.vs).v2,
               v3 := (sipRounds k s.vs).v3, rc := 0, fsm := .ready } := by
  rw [State.compressed, State.afterRounds_eq_sipRounds, if_neg (ne_true_of_eq_false h)]
  rfl

theorem finalized_eq (s : State) (k : Nat) :
    s.finalized k =
      { s.withVs (sipRounds k s.vs) with rc := 0, fsm := .done, tagreg := fold (sipRounds k s.vs) } := by
  rw [State.finalized, State.afterRounds_eq_sipRounds]

theorem midPhase_eq (s : State) (k : Nat) :
    s.midPhase k = { s.withVs (sipRounds k s.vs) with rc := (s.midPhase k).rc } := by
  rw [State.midPhase, State.afterRounds_eq_sipRounds]

/-- Inside a phase the 3-bit round count does not wrap (10_state R26). -/
theorem toNat_midPhase_rc (h : s.rc.toNat + k < 8) : (s.midPhase k).rc.toNat = s.rc.toNat + k := by
  rw [State.midPhase_rc, BitVec.toNat_add, BitVec.toNat_ofNat, Nat.add_mod_mod, Nat.mod_eq_of_lt h]

/-- An edge without reset inside a phase is a round edge, whatever is on the command port. -/
theorem edge_of_phase (hrst : p.rst = false) (hrc : s.rc.toNat < s.fsm.phaseRounds)
    (hk : k = roundsNow s s.fsm.phaseRounds) :
    edge p s = .next (if s.rc.toNat + k = s.fsm.phaseRounds then s.phaseEnd k else s.midPhase k) :=
  (edge_of_busy hrst (Fsm.accepts_of_phaseRounds_pos (Nat.zero_lt_of_lt hrc))).trans (sequencerEdge_of_phase hrc hk)

/-- The last edge of a phase. -/
theorem edge_of_phase_last (hrst : p.rst = false) (hrc : s.rc.toNat < s.fsm.phaseRounds)
    (hk : k = roundsNow s s.fsm.phaseRounds) (hlast : s.rc.toNat + k = s.fsm.phaseRounds) :
    edge p s = .next (s.phaseEnd k) := by
  rw [edge_of_phase hrst hrc hk, if_pos hlast]

/-- An edge of a phase that is not its last: the rounds' result and the new round count, and nothing else. -/
theorem edge_of_phase_inside (hrst : p.rst = false) (hrc : s.rc.toNat < s.fsm.phaseRounds)
    (hk : k = roundsNow s s.fsm.phaseRounds) (hne : s.rc.toNat + k ≠ s.fsm.phaseRounds) :
    ∃ t, edge p s = .next t ∧ t.rc.toNat = s.rc.toNat + k ∧ t = { s.withVs (sipRounds k s.vs) with rc := t.rc } := by
  have hle : k ≤ s.fsm.phaseRounds - s.rc.toNat := hk ▸ Nat.min_le_right _ _
  have hmax := s.fsm.phaseRounds_le
  refine ⟨s.midPhase k, ?_, toNat_midPhase_rc (by omega), midPhase_eq s k⟩
  rw [edge_of_phase hrst hrc hk, if_neg hne]

end Sys2Proof.Machine
end

section
/-! SUPPORT. No edge changes the parameters the block was built with, or the supplier's script (43_sequencer R170). -/

namespace Sys2Proof.Machine

variable {s t : State}

theorem exec_keeps_parameters {i : Instr} (h : exec i s = .next t) : t.config = s.config ∧ t.supplier = s.supplier := by
  obtain ⟨-, rfl⟩ | ⟨k0, k1, -, rfl⟩ | ⟨-, rfl⟩ | ⟨m, -, -, rfl⟩ | ⟨m, -, -, rfl⟩ | ⟨nb, w, -, -, rfl⟩ |
    ⟨nb, w, -, -, rfl⟩ := exec_cases h
  case inr.inr.inr.inl | inr.inr.inr.inr.inr.inl => exact ⟨State.raiseErr_config s .seq, State.raiseErr_supplier s .seq⟩
  all_goals exact ⟨rfl, rfl⟩

theorem accept_keeps_parameters {c : Command} (h : accept c s = .next t) :
    t.config = s.config ∧ t.supplier = s.supplier := by
  obtain ⟨i, -, hexec⟩ | ⟨why, -, rfl⟩ := accept_cases h
  · exact exec_keeps_parameters hexec
  · exact ⟨State.raiseErr_config s .illegal, State.raiseErr_supplier s .illegal⟩

theorem edge_keeps_parameters {p : PortIn} (h : edge p s = .next t) : t.config = s.config ∧ t.supplier = s.supplier := by
  obtain ⟨-, rfl⟩ | ⟨-, haccept⟩ | ⟨-, -, -, hround⟩ | ⟨-, -, -, hround⟩ | ⟨-, -, -, rfl⟩ := edge_cases h
  · exact ⟨rfl, rfl⟩
  · exact accept_keeps_parameters haccept
  · obtain ⟨-, ⟨-, rfl⟩ | ⟨-, rfl⟩⟩ := compressionEdge_cases hround
    · exact ⟨State.compressed_config s _, State.compressed_supplier s _⟩
    · exact ⟨rfl, rfl⟩
  · obtain ⟨-, ⟨-, rfl⟩ | ⟨-, rfl⟩⟩ := finalizationEdge_cases hround <;> exact ⟨rfl, rfl⟩
  · exact ⟨rfl, rfl⟩

end Sys2Proof.Machine
end

section
/-! SUPPORT. Idle edges in a row (43_sequencer R174). -/

namespace Sys2Proof.Machine

theorem edges_replicate_of_fixed {p : PortIn} {s : State} (h : edge p s = .next s) (n : Nat) :
    edges (List.replicate n p) s = .next s := by
  induction n with
  | zero => rfl
  | succ n ih => rw [List.replicate_succ, edges_cons h, ih]

end Sys2Proof.Machine
end

section
/-! The sequencer's edges: compression, finalization and hold, the bound of a busy period, and the parameters
(43_sequencer R170-R174). -/

namespace Sys2Proof.Machine

/-- Settles O32: an edge of the phase of two rounds; its last edge is `compressed` with the branch of `lastblk` taken. -/
theorem compressionEdgeEffect : Obligations.CompressionEdgeEffect := by
  unfold Obligations.CompressionEdgeEffect
  rintro s p k _ hrst hcomp hrc hk rfl
  have hphase : s.fsm.phaseRounds = 2 := congrArg Fsm.phaseRounds hcomp
  rw [← hphase] at hrc hk ⊢
  refine ⟨fun hlast hfinal => ?final, fun hlast hblock => ?block, fun hne => edge_of_phase_inside hrst hrc hk hne⟩
  case final =>
    rw [edge_of_phase_last hrst hrc hk hlast, State.phaseEnd_of_comp hcomp, compressed_of_lastblk hfinal]
    rfl
  case block =>
    rw [edge_of_phase_last hrst hrc hk hlast, State.phaseEnd_of_comp hcomp, compressed_of_not_lastblk hblock]
    rfl

/-- Settles O33: an edge of the phase of four rounds; its last edge is `finalized`. -/
theorem finalizationEdgeEffect : Obligations.FinalizationEdgeEffect := by
  unfold Obligations.FinalizationEdgeEffect
  rintro s p k _ hrst hfin hrc hk rfl
  have hphase : s.fsm.phaseRounds = 4 := congrArg Fsm.phaseRounds hfin
  rw [← hphase] at hrc hk ⊢
  refine ⟨fun hlast => ?last, fun hne => edge_of_phase_inside hrst hrc hk hne⟩
  case last =>
    rw [edge_of_phase_last hrst hrc hk hlast, State.phaseEnd_of_fin hfin, finalized_eq]
    rfl

/-- Settles O35: the sequencer holds in the states that accept commands, and a state that one edge keeps is kept by any
number of them. -/
theorem idleEdgeHolds : Obligations.IdleEdgeHolds := by
  unfold Obligations.IdleEdgeHolds
  intro s p hrst hno hidle
  have hhold : edge p s = .next s :=
    (edge_of_noAccept hrst hno).trans (sequencerEdge_of_accepts ((Fsm.accepts_iff s.fsm).mpr hidle))
  exact ⟨hhold, edges_replicate_of_fixed hhold⟩

/-- Settles O48: the busy period has at most six edges, and the port values given drive it to its end. -/
theorem busyPeriodIsBounded : Obligations.BusyPeriodIsBounded := by
  unfold Obligations.BusyPeriodIsBounded
  intro s ps hinv _ hrst hlen
  obtain ⟨n, t, hn, hrun, haccepts⟩ := busyRun_until_accepts hinv
  have htake : (ps.take n).length = n := List.length_take_of_le (hlen ▸ hn)
  exact ⟨n, t, hn, hrun.edges_eq (fun p hp => hrst p (List.mem_of_mem_take hp)) htake, haccepts⟩

/-- Settles O40: no edge changes a parameter, and a step is an edge after the script has moved on. -/
theorem parametersNeverChange : Obligations.ParametersNeverChange := by
  unfold Obligations.ParametersNeverChange
  refine ⟨fun s t hstep => ?step, fun p s t => edge_keeps_parameters⟩
  case step => exact (edge_keeps_parameters (s := s.withSupplier s.scriptAfter) hstep).1

end Sys2Proof.Machine
end

section
/-! SUPPORT. The message commands outside READY (42_message_commands R140, R143; 60_exceptions R200). -/

namespace Sys2Proof.Machine

variable {s : State}

theorem exec_block_of_not_ready (h : s.fsm ≠ .ready) (m : Word) : exec (.block m) s = .next (s.raiseErr .seq) := if_pos h

theorem exec_final_of_not_ready (h : s.fsm ≠ .ready) (nb : Nat) (w : Word) :
    exec (.final nb w) s = .next (s.raiseErr .seq) :=
  if_pos h

end Sys2Proof.Machine
end

section
/-! SUPPORT. Progress: an edge from a state that meets the invariant is not refused (43_sequencer R171; 60_exceptions R205,
R207). -/

namespace Sys2Proof.Machine

variable {s : State}

/-- The invariant keeps the round count of a busy state inside its phase, and the idle states hold. -/
theorem sequencerEdge_next (h : s.Inv = true) : ∃ t, sequencerEdge s = .next t := by
  cases hf : s.fsm with
  | unkeyed | ready | done => exact ⟨s, sequencerEdge_of_accepts (by rw [hf]; rfl)⟩
  | comp =>
    obtain ⟨hrc, -⟩ := (inv_iff_of_comp hf).mp h
    exact ⟨_, sequencerEdge_of_phase (by rwa [hf]) rfl⟩
  | fin =>
    obtain ⟨hrc, -⟩ := (inv_iff_of_fin hf).mp h
    exact ⟨_, sequencerEdge_of_phase (by rwa [hf]) rfl⟩

theorem edge_next (h : s.Inv = true) (p : PortIn) : ∃ t, edge p s = .next t := by
  cases hrst : p.rst with
  | true => exact ⟨_, edge_of_reset hrst⟩
  | false =>
    cases ha : s.acceptsAt p with
    | true =>
      rw [edge_of_accept ha]
      exact accept_next p.cmd s
    | false =>
      rw [edge_of_noAccept hrst ha]
      exact sequencerEdge_next h

end Sys2Proof.Machine
end

section
/-! SUPPORT. The error record after an accepted command, clause by clause, and after a round edge (60_exceptions R200, R203,
R204). -/

namespace Sys2Proof

theorem ctrl_of_decode_nop {c : Command} (h : decode c = .instr .nop) : c.ctrl = 0x00 := by
  have hcases := decode_cases h
  simp_all

theorem not_mem_legalControls_of_decode_illegal {c : Command} {why : IllegalCtrl} (h : decode c = .illegal why) :
    c.ctrl ∉ Machine.legalControls := by
  rw [← decode_eq_instr_iff]
  rintro ⟨i, hi⟩
  rw [h] at hi
  cases hi

end Sys2Proof

namespace Sys2Proof.Machine

variable {s t : State} {ctrl : BitVec 8}

/-- The error record: ERR and ERRCODE (10_state R28). -/
def State.errorRecord (s : State) : Bool × ErrCode := (s.err, s.errcode)

/-- The first error is kept (60_exceptions R203). -/
theorem errorRecord_raiseErr (s : State) (code : ErrCode) :
    (s.raiseErr code).errorRecord = if s.err then s.errorRecord else (true, code) := by
  rw [raiseErr_eq]
  cases herr : s.err <;> simp [State.errorRecord, herr]

theorem errorRecordAfter_clear (s : State) : s.errorRecordAfter 0x04 = (false, .none) := if_pos rfl

/-- Outside the listed CTRL values, an accepted command raises ERR_ILLEGAL (60_exceptions R200). -/
theorem errorRecordAfter_of_not_legal (h : ctrl ∉ legalControls) (s : State) :
    s.errorRecordAfter ctrl = (s.raiseErr .illegal).errorRecord := by
  have hclear : ctrl ≠ 0x04 := by rintro rfl; exact h (by decide)
  rw [State.errorRecordAfter, if_neg hclear, if_pos h, errorRecord_raiseErr]
  rfl

/-- A legal command but CLEAR records at most ERR_SEQ (60_exceptions R200, R203). -/
theorem errorRecordAfter_of_legal (hlegal : ctrl ∈ legalControls) (hclear : ctrl ≠ 0x04) (s : State) :
    s.errorRecordAfter ctrl =
      if (ctrl = 0x02 ∨ ctrl ∈ finalControls) ∧ s.fsm ≠ .ready then (s.raiseErr .seq).errorRecord
      else s.errorRecord := by
  rw [State.errorRecordAfter, if_neg hclear, if_neg (not_not.mpr hlegal), errorRecord_raiseErr]
  split_ifs <;> rfl

theorem legal_and_ne_clear_of_message (h : ctrl = 0x02 ∨ ctrl ∈ finalControls) : ctrl ∈ legalControls ∧ ctrl ≠ 0x04 := by
  decide +revert

/-- A message command outside READY raises ERR_SEQ. -/
theorem errorRecordAfter_message_of_not_ready (h : ctrl = 0x02 ∨ ctrl ∈ finalControls) (hf : s.fsm ≠ .ready) :
    s.errorRecordAfter ctrl = (s.raiseErr .seq).errorRecord := by
  obtain ⟨hlegal, hclear⟩ := legal_and_ne_clear_of_message h
  rw [errorRecordAfter_of_legal hlegal hclear, if_pos ⟨h, hf⟩]

/-- A message command in READY keeps the error record. -/
theorem errorRecordAfter_message_of_ready (h : ctrl = 0x02 ∨ ctrl ∈ finalControls) (hf : s.fsm = .ready) :
    s.errorRecordAfter ctrl = s.errorRecord := by
  obtain ⟨hlegal, hclear⟩ := legal_and_ne_clear_of_message h
  rw [errorRecordAfter_of_legal hlegal hclear, if_neg (fun ⟨_, hne⟩ => hne hf)]

/-- NOP and INIT keep the error record. -/
theorem errorRecordAfter_nop_init (h : ctrl = 0x00 ∨ ctrl = 0x01) (s : State) : s.errorRecordAfter ctrl = s.errorRecord := by
  have hother : ctrl ∈ legalControls ∧ ctrl ≠ 0x04 ∧ ¬ (ctrl = 0x02 ∨ ctrl ∈ finalControls) := by decide +revert
  obtain ⟨hlegal, hclear, hmessage⟩ := hother
  rw [errorRecordAfter_of_legal hlegal hclear, if_neg (fun ⟨hm, _⟩ => hmessage hm)]

/-- The error record after an accepted command is the one its CTRL value determines. -/
theorem accept_errorRecord {c : Command} (h : accept c s = .next t) : t.errorRecord = s.errorRecordAfter c.ctrl := by
  obtain ⟨i, hdec, hexec⟩ | ⟨why, hdec, rfl⟩ := accept_cases h
  · obtain ⟨rfl, rfl⟩ | ⟨k0, k1, rfl, rfl⟩ | ⟨rfl, rfl⟩ | ⟨m, rfl, hf, rfl⟩ | ⟨m, rfl, hf, rfl⟩ | ⟨nb, w, rfl, hf, rfl⟩ |
      ⟨nb, w, rfl, hf, rfl⟩ := exec_cases hexec
    · exact (errorRecordAfter_nop_init (.inl (ctrl_of_decode_nop hdec)) _).symm
    · exact (errorRecordAfter_nop_init (.inr (ctrl_of_decode_init hdec)) s).symm
    · rw [ctrl_of_decode_clear hdec, errorRecordAfter_clear]
      rfl
    · exact (errorRecordAfter_message_of_not_ready (.inl (ctrl_of_decode_block hdec)) hf).symm
    · exact (errorRecordAfter_message_of_ready (.inl (ctrl_of_decode_block hdec)) hf).symm
    · exact (errorRecordAfter_message_of_not_ready (.inr (ctrl_of_decode_final hdec)) hf).symm
    · exact (errorRecordAfter_message_of_ready (.inr (ctrl_of_decode_final hdec)) hf).symm
  · exact (errorRecordAfter_of_not_legal (not_mem_legalControls_of_decode_illegal hdec) s).symm

/-- A round keeps the error record (43_sequencer R172, R173). -/
theorem compressionEdge_keeps_errorRecord (h : compressionEdge s = .next t) : t.errorRecord = s.errorRecord := by
  obtain ⟨-, ⟨-, rfl⟩ | ⟨-, rfl⟩⟩ := compressionEdge_cases h
  · simp [State.errorRecord]
  · rfl

theorem finalizationEdge_keeps_errorRecord (h : finalizationEdge s = .next t) : t.errorRecord = s.errorRecord := by
  obtain ⟨-, ⟨-, rfl⟩ | ⟨-, rfl⟩⟩ := finalizationEdge_cases h <;> rfl

end Sys2Proof.Machine
end

section
/-! The error record after any edge, what an out-of-sequence command leaves, and progress (60_exceptions R200-R207). -/

namespace Sys2Proof.Machine

/-- Settles O19, by the five things an edge can do: reset clears the record, an accepted command changes it as its CTRL
value says, rounds and hold edges keep it. -/
theorem errorRecordAfterEveryEdge : Obligations.ErrorRecordAfterEveryEdge := by
  unfold Obligations.ErrorRecordAfterEveryEdge
  intro s p t h
  obtain ⟨hrst, rfl⟩ | ⟨ha, haccept⟩ | ⟨hrst, ha, -, hround⟩ | ⟨hrst, ha, -, hround⟩ | ⟨hrst, ha, -, rfl⟩ := edge_cases h
  · rw [hrst]
    rfl
  · obtain ⟨hrst, -, -⟩ := (acceptsAt_iff s p).mp ha
    rw [hrst, ha]
    exact accept_errorRecord haccept
  · rw [hrst, ha]
    exact compressionEdge_keeps_errorRecord hround
  · rw [hrst, ha]
    exact finalizationEdge_keeps_errorRecord hround
  · rw [hrst, ha]
    rfl

/-- Settles O43: a step is an edge after the script has moved on, which the invariant does not read, and no edge from a
state that meets the invariant is refused. -/
theorem theMachineNeverStops : Obligations.TheMachineNeverStops := by
  unfold Obligations.TheMachineNeverStops
  exact fun s h => ⟨edge_next (s := s.withSupplier s.scriptAfter) h s.ports, edge_next h⟩

/-- Settles O17: neither state is READY, so both commands raise ERR_SEQ. -/
theorem outOfSequenceOnlyRecordsTheError : Obligations.OutOfSequenceOnlyRecordsTheError := by
  unfold Obligations.OutOfSequenceOnlyRecordsTheError
  intro s m nb w hidle
  have hf : s.fsm ≠ .ready := by rcases hidle with h | h <;> rw [h] <;> decide
  rw [exec_block_of_not_ready hf, exec_final_of_not_ready hf, raiseErr_eq]
  exact ⟨rfl, rfl⟩

end Sys2Proof.Machine
end

section
/-! A reset edge and the command port (70_reset_and_hazards R220). -/

namespace Sys2Proof.Machine

/-- A reset edge withdraws `cmd_ready` in every state (10_state R37). -/
theorem cmdReady_of_rst_high (s : State) : s.cmdReady true = false := Bool.false_and _

/-- A reset edge accepts no command, since an acceptance needs `rst = 0` (41_control_commands R120). -/
theorem acceptsAt_false_of_reset {p : PortIn} (hrst : p.rst = true) (s : State) : s.acceptsAt p = false := by
  refine Bool.eq_false_iff.mpr fun ha => ?_
  obtain ⟨hlow, -, -⟩ := (acceptsAt_iff s p).mp ha
  cases hrst.symm.trans hlow

/-- Settles O20: reset is the first thing an edge looks at and zeroizes every register; both `cmd_ready` and an acceptance
need `rst = 0`. -/
theorem resetEdgeWins : Obligations.ResetEdgeWins := by
  unfold Obligations.ResetEdgeWins
  intro s p hrst
  refine ⟨?registers, ?ready, acceptsAt_false_of_reset hrst s⟩
  case registers => exact edge_of_reset hrst
  case ready => rw [hrst, cmdReady_of_rst_high]

end Sys2Proof.Machine
end

section
/-! SUPPORT. A command is laid out as its 136-bit word and read back, and the encoding of what a command decodes to
(30_encoding R70-R73). -/

namespace Sys2Proof

variable {c : Command} {i : Instr}

/-- The 136-bit word of a command holds its three fields (30_encoding R70). -/
@[simp] theorem ofWord_toWord (c : Command) : Command.ofWord c.toWord = c := by
  have hctrl : c.toWord.extractLsb' 0 8 = c.ctrl := BitVec.extractLsb'_append_eq_right
  have hd0 : c.toWord.extractLsb' 8 64 = c.d0 :=
    (BitVec.extractLsb'_append_eq_of_le (by decide)).trans BitVec.extractLsb'_append_eq_right
  have hd1 : c.toWord.extractLsb' 72 64 = c.d1 :=
    (BitVec.extractLsb'_append_eq_of_le (by decide)).trans BitVec.extractLsb'_append_eq_left
  rw [Command.ofWord, hctrl, hd0, hd1]

theorem wellFormed_of_decode (h : decode c = .instr i) : i.wellFormed = true := by
  obtain ⟨rfl, -⟩ | ⟨rfl, -⟩ | ⟨rfl, -⟩ | ⟨rfl, -⟩ | ⟨rfl, -⟩ := decode_cases h
  case inr.inr.inr.inl => exact decide_eq_true (Nat.le_of_lt_succ (ctrlNb c.ctrl).isLt)
  all_goals rfl

theorem ctrl_encode_of_decode (h : decode c = .instr i) : (encode i).ctrl = c.ctrl := by
  obtain ⟨rfl, hctrl⟩ | ⟨rfl, hctrl⟩ | ⟨rfl, hctrl⟩ | ⟨rfl, hctrl⟩ | ⟨rfl, hctrl⟩ := decode_cases h
  case inr.inr.inr.inl =>
    exact BitVec.eq_of_toNat_eq
      ((ctrl_encode_final_toNat (ctrlNb c.ctrl).isLt c.d0).trans (toNat_of_mem_finalControls hctrl).symm)
  all_goals exact hctrl.symm

end Sys2Proof
end

section
/-! SUPPORT. SipRound is two half-rounds and a half-round is undone step by step (40_sipround R102, R106, R110, R111). -/

namespace Sys2Proof.Machine

/-- Two rotations that make up a whole turn (40_sipround R102). -/
theorem rotl_rotl_of_add_eq {b c : Nat} (hb : 1 ≤ b) (hc : 1 ≤ c) (h : b + c = 64) (x : Word) : rotl (rotl x b) c = x := by
  refine BitVec.eq_of_getLsbD_eq fun i hi => ?_
  rw [rotationBits _ c i hc (by omega) hi, rotationBits x b _ hb (by omega) (Nat.mod_lt _ (by decide))]
  congr 1
  omega

section
variable {b : Nat} (hb : 1 ≤ b ∧ b ≤ 63) (x : Word)
include hb

theorem rotr_rotl : rotr (rotl x b) b = x := rotl_rotl_of_add_eq hb.1 (by omega) (by omega) x

theorem rotl_rotr : rotl (rotr x b) b = x := rotl_rotl_of_add_eq (by omega) hb.1 (by omega) x
end

/-- The inverse of a half-round: its statements undone in reverse order (40_sipround R105, R111). -/
def halfRoundInv (q : Quad) (s t : Nat) : Quad :=
  let a := rotr q.v0 32
  let b := rotr (q.v1 ^^^ a) s
  let d := rotr (q.v3 ^^^ q.v2) t
  { v0 := a - b, v1 := b, v2 := q.v2 - d, v3 := d }

section
variable {s t : Nat} (hs : 1 ≤ s ∧ s ≤ 63) (ht : 1 ≤ t ∧ t ≤ 63) (q : Quad)
include hs ht

theorem halfRoundInv_halfRound : halfRoundInv (halfRound q s t) s t = q := by
  have hturn (x : Word) : rotr (rotl x 32) 32 = x := rotr_rotl (by decide) x
  simp only [halfRoundInv, halfRound, hturn, BitVec.xor_assoc, BitVec.xor_self, BitVec.xor_zero, rotr_rotl hs,
    rotr_rotl ht, BitVec.add_sub_cancel]

theorem halfRound_halfRoundInv : halfRound (halfRoundInv q s t) s t = q := by
  have hturn (x : Word) : rotl (rotr x 32) 32 = x := rotl_rotr (by decide) x
  simp only [halfRoundInv, halfRound, hturn, BitVec.sub_add_cancel, rotl_rotr hs, rotl_rotr ht, BitVec.xor_assoc,
    BitVec.xor_self, BitVec.xor_zero]
end

/-- The inverse that 40_sipround R111 writes is that of the two half-rounds, the second undone first. -/
theorem sipRoundInv_eq_halfRoundInv (q : Quad) :
    sipRoundInv q = halfRoundInv (halfRoundInv q.exchange 17 21).exchange 13 16 := rfl

theorem sipRoundInv_sipRound (v : Quad) : sipRoundInv (sipRound v) = v := by
  rw [← sipRoundPermuted_eq, sipRoundPermuted, sipRoundInv_eq_halfRoundInv, Quad.exchange_exchange,
    halfRoundInv_halfRound (by decide) (by decide), Quad.exchange_exchange,
    halfRoundInv_halfRound (by decide) (by decide)]

theorem sipRound_sipRoundInv (v : Quad) : sipRound (sipRoundInv v) = v := by
  rw [← sipRoundPermuted_eq, sipRoundPermuted, sipRoundInv_eq_halfRoundInv,
    halfRound_halfRoundInv (by decide) (by decide), Quad.exchange_exchange,
    halfRound_halfRoundInv (by decide) (by decide), Quad.exchange_exchange]

theorem sipRound_zero : sipRound ⟨0, 0, 0, 0⟩ = ⟨0, 0, 0, 0⟩ := by decide

end Sys2Proof.Machine
end

section
/-! SUPPORT. When an edge is refused (93 I6; log 7). -/

namespace Sys2Proof.Machine

variable {s : State}

theorem compressionEdge_refused_iff : (∃ r, compressionEdge s = .refused r) ↔ 2 ≤ s.rc.toNat := by
  simp only [compressionEdge]
  split_ifs <;> simp [*]

theorem finalizationEdge_refused_iff : (∃ r, finalizationEdge s = .refused r) ↔ 4 ≤ s.rc.toNat := by
  simp only [finalizationEdge]
  split_ifs <;> simp [*]

theorem sequencerEdge_refused_iff :
    (∃ r, sequencerEdge s = .refused r) ↔
      (s.fsm = .comp ∧ 2 ≤ s.rc.toNat) ∨ (s.fsm = .fin ∧ 4 ≤ s.rc.toNat) := by
  cases hf : s.fsm with
  | unkeyed | ready | done => simp [sequencerEdge_of_accepts, hf, Fsm.accepts]
  | comp => simp [sequencerEdge_of_comp hf, compressionEdge_refused_iff]
  | fin => simp [sequencerEdge_of_fin hf, finalizationEdge_refused_iff]

end Sys2Proof.Machine
end

section
/-! SUPPORT. What an edge does to the state of the sequencer and to the tag (10_state R25, R30; 43_sequencer R171). -/

namespace Sys2Proof.Machine

variable {s t : State}

/-- An accepted command keeps both, or it is an INIT, a CLEAR or a message command in READY. -/
theorem accept_fsm_tagreg_cases {c : Command} (h : accept c s = .next t) :
    (t.fsm = s.fsm ∧ t.tagreg = s.tagreg) ∨ (t.fsm = .ready ∧ c.ctrl = 0x01) ∨ (t.fsm = .unkeyed ∧ c.ctrl = 0x04) ∨
    (s.fsm = .ready ∧ t.fsm = .comp) := by
  obtain ⟨i, hdec, hexec⟩ | ⟨why, -, rfl⟩ := accept_cases h
  · obtain ⟨-, rfl⟩ | ⟨k0, k1, rfl, rfl⟩ | ⟨rfl, rfl⟩ | ⟨m, -, -, rfl⟩ | ⟨m, -, hf, rfl⟩ | ⟨nb, w, -, -, rfl⟩ |
      ⟨nb, w, -, hf, rfl⟩ := exec_cases hexec
    · exact .inl ⟨rfl, rfl⟩
    · exact .inr (.inl ⟨rfl, ctrl_of_decode_init hdec⟩)
    · exact .inr (.inr (.inl ⟨rfl, ctrl_of_decode_clear hdec⟩))
    · exact .inl ⟨State.raiseErr_fsm s .seq, State.raiseErr_tagreg s .seq⟩
    · exact .inr (.inr (.inr ⟨hf, rfl⟩))
    · exact .inl ⟨State.raiseErr_fsm s .seq, State.raiseErr_tagreg s .seq⟩
    · exact .inr (.inr (.inr ⟨hf, rfl⟩))
  · exact .inl ⟨State.raiseErr_fsm s .illegal, State.raiseErr_tagreg s .illegal⟩

/-- No compression edge ends in DONE (43_sequencer R172). -/
theorem compressionEdge_fsm_ne_done (hf : s.fsm = .comp) (h : compressionEdge s = .next t) : t.fsm ≠ .done := by
  obtain ⟨-, ⟨-, rfl⟩ | ⟨-, rfl⟩⟩ := compressionEdge_cases h
  · rw [State.compressed_fsm]
    split <;> decide
  · rw [State.midPhase_fsm, hf]
    decide

end Sys2Proof.Machine
end

section
/-! SUPPORT. WAIT and WAITTAG: what is due once they are satisfied and until then (30_encoding R79; log 9). -/

namespace Sys2Proof.Machine

variable {s : State} {rest : List Stimulus}

/-- What is due of a list of items is decided by the registers alone. -/
theorem dueOf_withSupplier (s : State) (l items : List Stimulus) : (s.withSupplier l).dueOf items = s.dueOf items := by
  induction items with
  | nil => rfl
  | cons item rest ih =>
    cases item with
    | edge _ | present _ => rfl
    | wait | waitTag =>
      rw [State.dueOf, State.dueOf, ih]
      rfl

theorem due_withSupplier (s : State) (l : List Stimulus) : (s.withSupplier l).due = s.dueOf l :=
  dueOf_withSupplier s l l

/-- A step reads of the script only what is due. -/
theorem step_eq_step_withSupplier (h : s.due = s.dueOf rest) : step s = step (s.withSupplier rest) := by
  rw [← due_withSupplier] at h
  simp only [step, State.ports, State.scriptAfter, h]
  rfl

theorem due_of_wait (h : s.supplier = .wait :: rest) :
    s.due = if s.cmdReady false then s.dueOf rest else .wait :: rest := by
  rw [State.due, h, State.dueOf]

theorem due_of_waitTag (h : s.supplier = .waitTag :: rest) :
    s.due = if s.tagValid then s.dueOf rest else .waitTag :: rest := by
  rw [State.due, h, State.dueOf]

/-- A wait that is still due drives idle ports and stays in the script. -/
theorem step_of_wait_due {item : Stimulus} (hitem : item = .wait ∨ item = .waitTag) (h : s.supplier = item :: rest)
    (hdue : s.due = item :: rest) : step s = edge idlePorts s := by
  obtain rfl | rfl := hitem <;>
    simp only [step, State.ports, State.scriptAfter, hdue, withSupplier_of_supplier_eq h]

end Sys2Proof.Machine
end

section
/-! SUPPORT. The edge counts in numbers, and the final word of the empty message (43_sequencer R176; 42_message_commands
R152). -/

namespace Sys2Proof.Machine

/-- The final word of no bytes (42_message_commands R144, R152). -/
theorem finalWord_empty : finalWord 0 0 0 = 0 := by decide

theorem finalWordOf_keyed_empty (s : State) (k0 k1 : Word) : (s.keyed k0 k1).finalWordOf 0 0 = 0 := finalWord_empty

theorem messageFinalWord_nil : messageFinalWord [] = 0 := finalWord_empty

/-- The counts of BLOCK, FINAL and a whole hash for a given `U` (43_sequencer R176). -/
theorem edgeCounts_of_roundsEachEdge {s : State} {U block final : Nat} (hU : roundsEachEdge s = U)
    (hblock : 1 + (2 + U - 1) / U = block) (hfinal : block + (4 + U - 1) / U = final) (len : Nat) :
    blockEdges s = block ∧ finalEdges s = final ∧ hashEdges s len = 1 + len / 8 * block + final := by
  have hb : blockEdges s = block := by rw [blockEdges, phaseEdges, hU, hblock]
  have hf : finalEdges s = final := by rw [finalEdges, ← blockEdges, hb, phaseEdges, hU, hfinal]
  exact ⟨hb, hf, by rw [hashEdges, hb, hf]⟩

end Sys2Proof.Machine
end

section
/-! The encoding, SipRound, refused edges, the state DONE, the edge counts, waiting and the empty message (30_encoding
R70-R79; 40_sipround R104-R111; 42_message_commands R152; 43_sequencer R175, R176; 10_state R30; 93 I6). -/

namespace Sys2Proof.Machine

/-- Settles O4: the word gives the encoded command back, which decodes to the instruction. -/
theorem decodeOfEncodeIsTheInstruction : Obligations.DecodeOfEncodeIsTheInstruction := by
  unfold Obligations.DecodeOfEncodeIsTheInstruction
  intro i h
  rw [ofWord_toWord, decode_encode h]

/-- Settles O5: the instructions the decoder answers are well-formed and encode with their CTRL value. -/
theorem decodedInstructionEncodesBack : Obligations.DecodedInstructionEncodesBack := by
  unfold Obligations.DecodedInstructionEncodesBack
  exact fun _ _ h => ⟨wellFormed_of_decode h, ctrl_encode_of_decode h, decode_encode (wellFormed_of_decode h)⟩

/-- Settles O29: the inverse undoes both half-rounds, on either side. -/
theorem sipRoundIsABijection : Obligations.SipRoundIsABijection := by
  unfold Obligations.SipRoundIsABijection
  exact ⟨Function.bijective_iff_has_inverse.mpr ⟨sipRoundInv, sipRoundInv_sipRound, sipRound_sipRoundInv⟩,
    sipRoundInv_sipRound, sipRound_sipRoundInv⟩

/-- Settles O34: reset and acceptance are never refused, and the sequencer refuses in the states named, which accept no
command. -/
theorem onlyUnreachableRoundCountsAreRefused : Obligations.OnlyUnreachableRoundCountsAreRefused := by
  unfold Obligations.OnlyUnreachableRoundCountsAreRefused
  intro s p
  cases hrst : p.rst with
  | true => simp [edge_of_reset hrst]
  | false =>
    cases ha : s.acceptsAt p with
    | true =>
      obtain ⟨t, ht⟩ := accept_next p.cmd s
      obtain ⟨-, -, hready⟩ := (acceptsAt_iff s p).mp ha
      have hidle : ¬ (s.fsm = .comp ∨ s.fsm = .fin) := fun hbusy => by
        rw [cmdReady_eq_false_of_busy hbusy] at hready
        cases hready
      rw [edge_of_accept ha, ht]
      exact iff_of_false nofun fun ⟨_, hrange⟩ => hidle (hrange.imp And.left And.left)
    | false =>
      rw [edge_of_noAccept hrst ha, sequencerEdge_refused_iff]
      exact (and_iff_right rfl).symm

/-- Settles O45, by the five things an edge can do. -/
theorem doneIsEnteredAndLeftOnlySo : Obligations.DoneIsEnteredAndLeftOnlySo := by
  unfold Obligations.DoneIsEnteredAndLeftOnlySo
  intro s p t h
  obtain ⟨hrst, rfl⟩ | ⟨ha, haccept⟩ | ⟨-, -, hf, hround⟩ | ⟨hrst, -, hf, -⟩ | ⟨-, -, -, rfl⟩ := edge_cases h
  · exact ⟨nofun, fun _ _ => .inl hrst, nofun⟩
  · obtain ⟨hfsm, htag⟩ | ⟨hfsm, hctrl⟩ | ⟨hfsm, hctrl⟩ | ⟨hready, hfsm⟩ := accept_fsm_tagreg_cases haccept
    · exact ⟨fun _ _ => htag, fun hs ht => absurd (hfsm.trans hs) ht, fun hs ht => absurd (hfsm.symm.trans ht) hs⟩
    · exact ⟨by simp [hfsm], fun _ _ => .inr ⟨ha, .inl hctrl⟩, by simp [hfsm]⟩
    · exact ⟨by simp [hfsm], fun _ _ => .inr ⟨ha, .inr hctrl⟩, by simp [hfsm]⟩
    · simp [hready, hfsm]
  · simp [hf, compressionEdge_fsm_ne_done hf hround]
  · simp [hf, hrst]
  · exact ⟨fun _ _ => rfl, fun hs ht => absurd hs ht, fun hs ht => absurd ht hs⟩

/-- Settles O9: a busy block accepts nothing, and an idle one that accepts nothing holds. -/
theorem acceptEdgesAreNoRoundEdges : Obligations.AcceptEdgesAreNoRoundEdges := by
  unfold Obligations.AcceptEdgesAreNoRoundEdges
  refine fun s p => ⟨fun hbusy => ?busy, fun hcomp hfin hrst => ?idle⟩
  case busy => exact acceptsAt_false_of_busy p (cmdReady_of_rst_low s ▸ cmdReady_eq_false_of_busy hbusy false)
  case idle =>
    have hidle : s.fsm.accepts = true := by
      cases hf : s.fsm with
      | unkeyed | ready | done => rfl
      | comp => exact absurd hf hcomp
      | fin => exact absurd hf hfin
    cases ha : s.acceptsAt p with
    | true => exact .inl (edge_of_accept ha)
    | false => exact .inr ((edge_of_noAccept hrst ha).trans (sequencerEdge_of_accepts hidle))

/-- Settles O26: the three forms are one function. -/
theorem roundFormsAgree : Obligations.RoundFormsAgree := by
  unfold Obligations.RoundFormsAgree
  exact fun v => ⟨sipRoundSsa_eq v, sipRoundPermuted_eq v⟩

/-- Settles O28, by induction on the number of rounds: one round keeps the zero state. -/
theorem zeroStateIsFixed : Obligations.ZeroStateIsFixed := by
  unfold Obligations.ZeroStateIsFixed
  intro n
  induction n with
  | zero => rfl
  | succ n ih => rw [sipRounds_succ, ih, sipRound_zero]

/-- Settles O36: the two phases' counts for each value of `U`. -/
theorem edgeCounts : Obligations.EdgeCounts := by
  unfold Obligations.EdgeCounts
  refine fun s len => ⟨fun h => ?one, fun h => ?two, fun h => ?four⟩
  case one => exact edgeCounts_of_roundsEachEdge (U := 1) (by rw [roundsEachEdge, h]) rfl rfl len
  case two => exact edgeCounts_of_roundsEachEdge (U := 2) (by rw [roundsEachEdge, h]) rfl rfl len
  case four => exact edgeCounts_of_roundsEachEdge (U := 4) (by rw [roundsEachEdge, h]) rfl rfl len

/-- Settles O41: the reset state is a zeroized one. -/
theorem resetMeetsTheInvariant : Obligations.ResetMeetsTheInvariant := by
  unfold Obligations.ResetMeetsTheInvariant
  exact inv_zeroized (s := .reset)

/-- Settles O49: a step reads of the script only what is due, which a satisfied wait leaves to the rest; an unmet one drives
idle ports, and an edge that accepts nothing does not read the command. -/
theorem satisfiedWaitTakesNoEdgeUnmetWaitIdles : Obligations.SatisfiedWaitTakesNoEdgeUnmetWaitIdles := by
  unfold Obligations.SatisfiedWaitTakesNoEdgeUnmetWaitIdles
  refine fun s rest => ⟨fun hs hready => ?wait, fun hs hvalid => ?waitTag, fun hunmet c => ?unmet⟩
  case wait => exact step_eq_step_withSupplier ((due_of_wait hs).trans (if_pos hready))
  case waitTag => exact step_eq_step_withSupplier ((due_of_waitTag hs).trans (if_pos hvalid))
  case unmet =>
    have hidle : step s = edge idlePorts s := by
      obtain ⟨hs, hbusy⟩ | ⟨hs, hinvalid⟩ := hunmet
      · exact step_of_wait_due (.inl rfl) hs ((due_of_wait hs).trans (if_neg (ne_true_of_eq_false hbusy)))
      · exact step_of_wait_due (.inr rfl) hs ((due_of_waitTag hs).trans (if_neg (ne_true_of_eq_false hinvalid)))
    rw [hidle, edge_of_noAccept rfl rfl, edge_of_noAccept rfl rfl]

/-- Settles O53: no block, and the final word 0; the keyed block is READY and so takes the FINAL. -/
theorem emptyMessage : Obligations.EmptyMessage := by
  unfold Obligations.EmptyMessage
  refine fun k0 k1 => ⟨rfl, ?hash, fun s a hinit => ?machine⟩
  case hash =>
    rw [sipHash24, messageFinalWord_nil]
    rfl
  case machine =>
    obtain rfl : s.keyed k0 k1 = a := Host.Outcome.next.inj hinit
    exact ⟨_, exec_final_of_ready rfl 0 0, finalWordOf_keyed_empty s k0 k1, rfl, rfl, rfl⟩

end Sys2Proof.Machine
end
